-- ==== Sys2Proof/Word.lean ====
section
/-! DEFINITION. The widths the spec gives to values (00_scope.md R7, 10_state.md R11 to R20). -/

namespace Sys2Proof

/-- One byte of BUF or of a wire frame. -/
abbrev Byte := BitVec 8
/-- RAW, CO2, CRC16, CMD. -/
abbrev Word16 := BitVec 16
/-- REM and the divisor of the 8-bit polynomial check. -/
abbrev Word24 := BitVec 24
/-- Host data, STAT, TNUM, RHNUM. -/
abbrev Word32 := BitVec 32
/-- A register index of the host port (20_memory.md R40). -/
abbrev Index := BitVec 8

end Sys2Proof
end

