-- ==== Sys2Proof/Syntax.lean ====
section
/-! DEFINITION. The eleven host commands (30_encoding.md R63), one constructor per row of spec/opcode_table.json. -/

namespace Sys2Proof

/-- A command (R63). MEAS alone has an operand, its 8-bit immediate (R62); every other operand is implicit (R61). -/
inductive Instr where
  /-- CRC8CHK, R82. -/
  | crc8chk
  /-- CRC16, R86. -/
  | crc16
  /-- CRC16CHK, R87. -/
  | crc16chk
  /-- CONVT, R104. -/
  | convt
  /-- CONVRH, R105. -/
  | convrh
  /-- CONVCO2, R106. -/
  | convco2
  /-- MEAS imm8, R116. -/
  | meas (imm : Byte)
  /-- MEAST, R117. -/
  | meast
  /-- MEASRH, R118. -/
  | measrh
  /-- RDSC, R135. -/
  | rdsc
  /-- RDCO2, R136. -/
  | rdco2
  deriving DecidableEq, Repr

end Sys2Proof
end

