-- ==== Sys2Proof/WellFormed.lean ====
section
/-! DEFINITION. Which command words are well formed (30_encoding.md R64), written from R64's own sentence and apart
from the decoder, so that the two can be held against each other.
Every term of `Instr` is well formed: its one operand is an 8-bit field any value of which is legal (R61, R116). What can
be ill formed is a command WORD, so the check is on words. -/

namespace Sys2Proof

/-- The opcode is one of format N: 0x01 .. 0x06, 0x08 .. 0x0B (R64). -/
def isFormatN (op : Byte) : Bool :=
  (0x01#8 ≤ op && op ≤ 0x06#8) || (0x08#8 ≤ op && op ≤ 0x0B#8)

/-- `legal(op, imm)` of R64. -/
def legal (op imm : Byte) : Bool :=
  op == 0x07#8 || (isFormatN op && imm == 0x00#8)

/-- A command word is well formed iff it is legal by its two fields (R60, R64). -/
def CommandWord.wellFormed (w : Word16) : Bool :=
  legal (w.extractLsb' 0 8) (w.extractLsb' 8 8)

end Sys2Proof
end

