-- ==== Sys2Proof/Decode.lean ====
section
/-! DEFINITION. The command decoder, total on 16-bit words and rejecting by name, and the encoder, from the tables of
30_encoding.md (R60 to R65). A command is the low 16 bits of a host write to CMD; it is not laid out in bytes, so no byte
order enters. -/

namespace Sys2Proof

/-- CMD.OP = w[7:0] (R60). -/
def opField (w : Word16) : Byte := w.extractLsb' 0 8
/-- CMD.IMM = w[15:8] (R60, R62). -/
def immField (w : Word16) : Byte := w.extractLsb' 8 8

/-- What the decoder reads: a command, or why there is none (R64). -/
inductive Decoded where
  /-- The word's command. -/
  | instr (i : Instr)
  /-- The opcode is 0x00 or one of 0x0C .. 0xFF. -/
  | reservedOpcode (op : Byte)
  /-- A format-N opcode with a non-zero immediate field. -/
  | immediateNotZero (op imm : Byte)
  deriving DecidableEq, Repr

/-- A format-N row: the immediate field must be 0x00 (R61). -/
def formatN (i : Instr) (w : Word16) : Decoded :=
  if immField w = 0x00#8 then .instr i else .immediateNotZero (opField w) (immField w)

/-- The opcode map (R63). -/
def decode (w : Word16) : Decoded :=
  match (opField w).toNat with
  | 0x01 => formatN .crc8chk w
  | 0x02 => formatN .crc16 w
  | 0x03 => formatN .crc16chk w
  | 0x04 => formatN .convt w
  | 0x05 => formatN .convrh w
  | 0x06 => formatN .convco2 w
  | 0x07 => .instr (.meas (immField w))
  | 0x08 => formatN .meast w
  | 0x09 => formatN .measrh w
  | 0x0A => formatN .rdsc w
  | 0x0B => formatN .rdco2 w
  | _ => .reservedOpcode (opField w)

/-- The opcode of a command (R63). -/
def Instr.opcode : Instr → Byte
  | .crc8chk => 0x01#8
  | .crc16 => 0x02#8
  | .crc16chk => 0x03#8
  | .convt => 0x04#8
  | .convrh => 0x05#8
  | .convco2 => 0x06#8
  | .meas _ => 0x07#8
  | .meast => 0x08#8
  | .measrh => 0x09#8
  | .rdsc => 0x0A#8
  | .rdco2 => 0x0B#8

/-- The immediate field of a command's word: MEAS's operand, 0x00 in format N (R61, R62). -/
def Instr.immediate : Instr → Byte
  | .meas imm => imm
  | _ => 0x00#8

/-- The command word of a command: immediate in bits 15:8, opcode in bits 7:0 (R60, R61). -/
def encode (i : Instr) : Word16 := i.immediate ++ i.opcode

/-- The decoder on a word numbered as spec/opcode_table.json numbers it (bit 0 least significant). A command is one
16-bit word and nothing longer (R65). -/
def decodeTableWord (nbits w : Nat) : Option Instr :=
  if nbits ≤ 16 then
    match decode (BitVec.ofNat 16 (w % 2 ^ nbits)) with
    | .instr i => some i
    | _ => none
  else none

end Sys2Proof
end

