-- ==== Sys2Proof/Config.lean ====
section
/-! DEFINITION. The constants DOC0 fixes (00_scope.md R6) and the parameters of R5.
CMD_TEMP and CMD_HUM are OPEN in the spec (R5, R119): opaque constants, so nothing can be proved of their values
(log 5). BUF_MAX is a field of State, which holds the default at reset (log 4). -/

namespace Sys2Proof.Config

/-- CMD_TEMP (R5, R119): the command byte MEAST sends. UNVERIFIED value, free. -/
opaque cmdTemp : Byte
/-- CMD_HUM (R5, R119): the command byte MEASRH sends. UNVERIFIED value, free. -/
opaque cmdHum : Byte

/-- BUF_MAX's default (R5). -/
def bufMaxDefault : Nat := 32
/-- The least BUF_MAX (R5). -/
def bufMaxLow : Nat := 11
/-- The greatest BUF_MAX (R5). -/
def bufMaxHigh : Nat := 128

/-- TW_ADDR (R6): the 7-bit two-wire device address. -/
def twAddr : BitVec 7 := 0x40#7
/-- TW_CLK_HZ (R6, R174): the bus clock the two-wire driver must be configured for; the block neither sets nor sees it. -/
def twClkHz : Nat := 100000
/-- SETTLE_MS (R6, R176). -/
def settleMs : BitVec 16 := 50#16
/-- SER_BAUD (R6, R174): the serial driver must be configured for it; the block neither sets nor sees it. -/
def serBaud : Nat := 9600
/-- Framing (R6, R174): 8 data bits. -/
def serDataBits : Nat := 8
/-- Framing (R6, R174): no parity, so no parity bit. -/
def serParityBits : Nat := 0
/-- Framing (R6, R174): 1 stop bit. -/
def serStopBits : Nat := 1
/-- SER_TIMEOUT_MS (R6, R130): inside the serial driver. -/
def serTimeoutMs : Nat := 1000
/-- RESP_MIN (R6, R137): the least length of a serial response. -/
def respMin : Nat := 11

end Sys2Proof.Config
end

