-- ==== Sys2Proof/Machine/State.lean ====
section
/-! DEFINITION. The state of CO2CORE (10_state.md R10 to R32), the events of its ports (R26 to R29) and the outcomes of a
step. -/

namespace Sys2Proof.Machine

/-- SEQ, the sequencer state (R21): which step the operation in flight waits in. Values 7 to 15 are never held, so they
have no name here (log 11). -/
inductive SeqState where
  | idle
  | exec
  | twWrite
  | twSettle
  | twRead
  | serWrite
  | serRead
  deriving DecidableEq, Repr

/-- ERR, the fault code of the last ended command (60_exceptions.md R151). Values 6 to 15 are never produced. -/
inductive ErrKind where
  | none
  | checksumError
  | malformedFrame
  | busError
  | illegalCommand
  | operandRange
  deriving DecidableEq, Repr

/-- `ok` or `err`: the answer to a write request (R27, R28). -/
inductive Ack where
  | ok
  | err
  deriving DecidableEq, Repr

/-- The answer to TwRead: exactly three bytes in the order received, or `err` (R27). -/
inductive TwReadResult where
  | ok (b0 b1 b2 : Byte)
  | err
  deriving DecidableEq, Repr

/-- The answer to SerRead: a list of any length, first byte received first, or `err` (R28). -/
inductive SerReadResult where
  | ok (bytes : List Byte)
  | err
  deriving DecidableEq, Repr

/-- What can happen to the block at one clock edge, other than reset (R26 to R29, R48; `ENV Complete` of R66). -/
inductive Event where
  /-- `HostWrite(a, v)` (R26). -/
  | hostWrite (a : Index) (v : Word32)
  /-- `HostRead(a)` (R26). -/
  | hostRead (a : Index)
  /-- The block's own `Complete` step of a pure command is due (R82, R179). -/
  | complete
  /-- `TwWriteDone(res)` (R27). -/
  | twWriteDone (r : Ack)
  /-- `DlyDone` (R29). -/
  | dlyDone
  /-- `TwReadDone(..)` (R27). -/
  | twReadDone (r : TwReadResult)
  /-- `SerWriteDone(res)` (R28). -/
  | serWriteDone (r : Ack)
  /-- `SerReadDone(..)` (R28). -/
  | serReadDone (r : SerReadResult)
  deriving DecidableEq, Repr

/-- One rising edge of `clk` (R30): the reset pin and at most one event (R48). Where `rst` is 1 the event does not
happen (R170). -/
structure Edge where
  rst : Bool
  event : Option Event
  deriving DecidableEq, Repr

/-- A request the block emits to a collaborator (R27, R28, R29). -/
inductive Request where
  | twWrite (addr : BitVec 7) (reg : Byte) (payload : List Byte)
  | twRead (addr : BitVec 7) (n : Nat)
  | serWrite (bytes : List Byte)
  | serRead
  | dlyStart (ms : BitVec 16)
  deriving DecidableEq, Repr

/-- The contents of BUF: (index, byte) pairs; an index that is not listed reads as `Memory.unlisted`. -/
abbrev Memory := List Host.Cell

/-- What an unlisted byte of BUF reads as: 0, every byte's value after reset (R23, R32). -/
def Memory.unlisted : Byte := 0x00#8

/-- The canonical form: indices strictly rising, no entry equal to what an unlisted byte reads as. -/
abbrev Memory.wf (m : Memory) : Prop :=
  m.Pairwise (fun c d => c.1 < d.1) ∧ ∀ c ∈ m, c.2 ≠ Memory.unlisted

/-- The whole state (R10), the parameter BUF_MAX, and the model's own fields for the block's ports (log 1, 4, 7). -/
structure State where
  /-- RAW (R11). -/
  raw : Word16
  /-- TNUM (R12), two's complement. -/
  tnum : Word32
  /-- RHNUM (R13), two's complement. -/
  rhnum : Word32
  /-- CO2 (R14). -/
  co2 : Word16
  /-- STATUS (R15). -/
  status : Byte
  /-- REM (R16). -/
  rem : Word24
  /-- CRC16 (R17). -/
  crc16 : Word16
  /-- LEN (R18). -/
  len : Byte
  /-- CMD, the command latch (R19). -/
  cmd : Word16
  /-- STAT.DONE (R20). -/
  done : Bool
  /-- STAT.VALID (R20, R22). -/
  valid : Bool
  /-- STAT.MATCH (R20, R22). -/
  matched : Bool
  /-- STAT.ERR (R20, R151). -/
  err : ErrKind
  /-- STAT.SEQ (R20, R21). -/
  seq : SeqState
  /-- BUF (R23). -/
  buf : Memory
  /-- The parameter BUF_MAX (R5); no step changes it (log 4). -/
  bufMax : Nat
  /-- The clock edges still to come: everything the outside world does (log 1). -/
  script : List Edge
  /-- Output: the request emitted in the latest step (R27 to R29), a one-cycle pulse (log 7). -/
  request : Option Request
  /-- Output: the data of a host read made in the latest step (R26, log 7). -/
  rdata : Option Word32
  deriving DecidableEq, Repr

/-- Why the model stops. Every fault of the SPEC is a next state with its code in `err`, not one of these. -/
inductive Fault where
  /-- Raised by CRC8CHK's Complete step and by the two-wire read response for an access of `n` bytes at `BUF[addr]` that
  does not lie inside BUF: MemRead and MemWrite are "defined only when addr + n <= BUF_MAX" (00_scope.md section 7). It
  needs BUF_MAX < 3, which R5 rules out. Safe: the model stops. -/
  | bufRange (addr n : Nat)
  deriving DecidableEq, Repr

/-- Why the model gives no meaning. -/
inductive Refusal where
  /-- An instruction exec has no meaning for; no arm answers it now. Safe. -/
  | notModelled (mnemonic : String)
  deriving DecidableEq, Repr

/-- The machine right after reset (R32, R170). `bufMax` is R5's default; nothing is scripted yet (log 1, 4). -/
def State.reset : State where
  raw := 0
  tnum := 0
  rhnum := 0
  co2 := 0
  status := 0
  rem := 0
  crc16 := 0
  len := 0
  cmd := 0
  done := false
  valid := false
  matched := false
  err := .none
  seq := .idle
  buf := []
  bufMax := Config.bufMaxDefault
  script := []
  request := Option.none
  rdata := Option.none

end Sys2Proof.Machine
end

