-- ==== Sys2Proof/Machine/Operands.lean ====
section
/-! DEFINITION. Operand forms: byte order (20_memory.md R46), the fields of CMD (10_state.md R19), the byte memory BUF
under MemRead and MemWrite (00_scope.md section 7). -/

namespace Sys2Proof.Machine

/-- `be16(hi, lo)`: a 16-bit value from two bytes, high byte first (R46). -/
def be16 (hi lo : Byte) : Word16 := hi ++ lo
/-- `lo8(v) = v[7:0]`. -/
def lo8 (v : Word16) : Byte := v.extractLsb' 0 8
/-- `hi8(v) = v[15:8]`. -/
def hi8 (v : Word16) : Byte := v.extractLsb' 8 8

/-- CMD.OP (R19). -/
def State.cmdOp (s : State) : Byte := opField s.cmd
/-- CMD.IMM (R19). -/
def State.cmdImm (s : State) : Byte := immField s.cmd

/-- STAT.BUSY, a view of SEQ (R20): 1 iff `SEQ != IDLE`. -/
def State.busy (s : State) : Bool := s.seq != .idle

/-- Read one byte of a memory. -/
def Memory.read (m : Memory) (a : Nat) : Byte :=
  match m with
  | [] => Memory.unlisted
  | (k, v) :: rest => if k = a then v else Memory.read rest a

/-- Write one byte of a memory, keeping the canonical form. -/
def Memory.write (m : Memory) (a : Nat) (b : Byte) : Memory :=
  match m with
  | [] => if b = Memory.unlisted then [] else [(a, b)]
  | (k, v) :: rest =>
    if a < k then (if b = Memory.unlisted then (k, v) :: rest else (a, b) :: (k, v) :: rest)
    else if a = k then (if b = Memory.unlisted then rest else (a, b) :: rest)
    else (k, v) :: Memory.write rest a b

/-- `MemRead(addr, n)`: `n` bytes in index order. -/
def Memory.readList (m : Memory) (addr n : Nat) : List Byte :=
  (List.range n).map (fun j => Memory.read m (addr + j))

/-- `MemWrite(addr, n, v)`: the bytes in list order from `addr` up. -/
def Memory.writeList (m : Memory) (addr : Nat) (bytes : List Byte) : Memory :=
  match bytes with
  | [] => m
  | b :: bs => Memory.writeList (Memory.write m addr b) (addr + 1) bs

/-- `BUF[i]`. -/
def State.bufByte (s : State) (i : Nat) : Byte := Memory.read s.buf i

/-- `MemRead(addr, n)` on BUF. -/
def State.memRead (s : State) (addr n : Nat) : List Byte := Memory.readList s.buf addr n

end Sys2Proof.Machine
end

