-- ==== Sys2Proof/Machine/Flags.lean ====
section
/-! DEFINITION. The status word STAT and its fields (10_state.md R20 to R22, 60_exceptions.md R151). -/

namespace Sys2Proof.Machine

/-- The encoding of SEQ (R21). -/
def SeqState.code : SeqState → BitVec 4
  | .idle => 0#4
  | .exec => 1#4
  | .twWrite => 2#4
  | .twSettle => 3#4
  | .twRead => 4#4
  | .serWrite => 5#4
  | .serRead => 6#4

/-- The encoding of ERR (R151). -/
def ErrKind.code : ErrKind → BitVec 4
  | .none => 0#4
  | .checksumError => 1#4
  | .malformedFrame => 2#4
  | .busError => 3#4
  | .illegalCommand => 4#4
  | .operandRange => 5#4

/-- STAT.ERRF, a view of ERR (R20): 1 iff `ERR != 0`. -/
def State.errf (s : State) : Bool := s.err != .none

/-- STAT as the host reads it (R20): reserved bits 31:16 and 7:5 read as 0. -/
def State.statWord (s : State) : Word32 :=
  0#16 ++ s.seq.code ++ s.err.code ++ 0#3 ++ BitVec.ofBool s.matched ++ BitVec.ofBool s.valid
    ++ BitVec.ofBool s.errf ++ BitVec.ofBool s.done ++ BitVec.ofBool s.busy

end Sys2Proof.Machine
end

