-- ==== Sys2Proof/Machine/Ops.lean ====
section
/-! DEFINITION. The operations every meaning is built from: the clock edge, the register writes, command acceptance,
and how an operation ends: `raise` (60_exceptions.md R158) with `finish` (R159) beside it. -/

namespace Sys2Proof.Machine

/-- The answer of a step. -/
abbrev Result := Host.Outcome State Fault Refusal

/-- The event of the next clock edge, if there is one. -/
def State.event (s : State) : Option Event :=
  match s.script with
  | [] => none
  | e :: _ => e.event

/-- A clock edge passes: the edge is used up and the one-cycle outputs fall (R27 to R29). Every step begins so. -/
def State.tick (s : State) : State :=
  { s with script := s.script.tail, request := none, rdata := none }

/-- `x[RAW] <- v`. -/
def State.setRaw (s : State) (v : Word16) : State := { s with raw := v }
/-- `x[TNUM] <- v`. -/
def State.setTnum (s : State) (v : Word32) : State := { s with tnum := v }
/-- `x[RHNUM] <- v`. -/
def State.setRhnum (s : State) (v : Word32) : State := { s with rhnum := v }
/-- `x[CO2] <- v`. -/
def State.setCo2 (s : State) (v : Word16) : State := { s with co2 := v }
/-- `x[STATUS] <- v`. -/
def State.setStatus (s : State) (v : Byte) : State := { s with status := v }
/-- `x[LEN] <- v`. -/
def State.setLen (s : State) (v : Byte) : State := { s with len := v }
/-- `x[REM] <- q ; STAT.VALID <- (q == 0)`: REM and VALID are always written together (R16, R20, R81). -/
def State.setRem (s : State) (q : Word24) : State := { s with rem := q, valid := q == 0#24 }
/-- `x[CRC16] <- c`. -/
def State.setCrc16 (s : State) (c : Word16) : State := { s with crc16 := c }
/-- `STAT.MATCH <- m`. -/
def State.setMatched (s : State) (m : Bool) : State := { s with matched := m }
/-- `BUF[i] <- b`. -/
def State.setBufByte (s : State) (i : Nat) (b : Byte) : State := { s with buf := Memory.write s.buf i b }
/-- `MemWrite(addr, length(bytes), bytes)` on BUF. -/
def State.memWrite (s : State) (addr : Nat) (bytes : List Byte) : State :=
  { s with buf := Memory.writeList s.buf addr bytes }

/-- `emit r ; SEQ <- q`: the operation in flight goes on to its next waiting state. -/
def State.goOn (s : State) (q : SeqState) (r : Request) : State := { s with seq := q, request := some r }

/-- `raise K` (R158): the operation ends with fault kind K; what the step wrote before stands. -/
def State.raise (s : State) (k : ErrKind) : State := { s with err := k, done := true, seq := .idle }

/-- `finish` (R159): the operation ends without fault; ERR is already 0 since acceptance. -/
def State.finish (s : State) : State := { s with done := true, seq := .idle }

/-- Command acceptance of a legal word (R60): the word is latched, DONE and ERR are cleared, SEQ starts its walk and the
start's request, if any, is emitted. VALID, MATCH, the data registers and BUF are not changed. -/
def State.accept (s : State) (w : Word16) (q : SeqState) (r : Option Request) : State :=
  { s.tick with cmd := w, done := false, err := .none, seq := q, request := r }

/-- An illegal word (R60, R155): latched, DONE = 1, ERR = IllegalCommand, SEQ stays IDLE, nothing else changes. -/
def State.illegal (s : State) (w : Word16) : State :=
  { s.tick with cmd := w, done := true, err := .illegalCommand }

/-- An access of `n` bytes at `BUF[addr]` must lie inside BUF (00_scope.md section 7, R53); otherwise the model stops
(log 9). -/
def guardBuf (s : State) (addr n : Nat) (go : Result) : Result :=
  if addr + n ≤ s.bufMax then go else .fault (.bufRange addr n)

/-- Reset (R170): every register, flag, SEQ and BUF take their reset values and no request is emitted. What is outside the
block goes on: the edges still to come stand (R171), and the build-time parameter stays (R5). -/
def State.resetEdge (s : State) : State :=
  { State.reset with bufMax := s.bufMax, script := s.script.tail }

/-- The walk of a pure command (R60, R21): `IDLE -> EXEC` at acceptance, `EXEC -> IDLE` in its `Complete` step, which
`complete` gives. An event the operation does not await changes nothing (R173). -/
def pureOp (i : Instr) (complete : State → Result) (s : State) : Result :=
  match s.seq, s.event with
  | .idle, _ => .next (s.accept (encode i) .exec none)
  | .exec, some .complete => complete s.tick
  | _, _ => .next s.tick

end Sys2Proof.Machine
end

