-- ==== Sys2Proof/Machine/Checksum.lean ====
section
/-! DEFINITION. The checksum engine (40_checksum.md): the two algorithms, and CRC8CHK, CRC16, CRC16CHK. -/

namespace Sys2Proof.Machine

/-- CRC8_DIVISOR (R6). -/
def crc8Divisor : Word24 := 0x988000#24
/-- CRC8_ITER (R6). -/
def crc8Iter : Nat := 16

/-- One iteration of R80 on (remainder, divisor): test bit `23 - i` of the current remainder, then shift the divisor. -/
def rem24Step (rd : Word24 × Word24) (i : Nat) : Word24 × Word24 :=
  (if rd.1.getLsbD (23 - i) then rd.1 ^^^ rd.2 else rd.1, rd.2 >>> 1)

/-- `rem24(b0, b1, b2)` (R80). -/
def rem24 (b0 b1 b2 : Byte) : Word24 :=
  ((List.range crc8Iter).foldl rem24Step
    (((be16 b0 b1).zeroExtend 24 <<< 8) ||| b2.zeroExtend 24, crc8Divisor)).1

/-- `crc8_valid` (R81). -/
def crc8Valid (b0 b1 b2 : Byte) : Bool := rem24 b0 b1 b2 == 0#24

/-- `crc8_gen` (R83): the checksum byte that makes a frame valid. No command computes it. -/
def crc8Gen (b0 b1 : Byte) : Byte := (rem24 b0 b1 0x00#8).extractLsb' 0 8

/-- CRC16_INIT (R6). -/
def crc16Init : Word16 := 0xFFFF#16
/-- CRC16_POLY (R6). -/
def crc16Poly : Word16 := 0xA001#16

/-- One of the eight shift steps of R84: the bit tested is that before the shift. -/
def crc16Shift (a : Word16) : Word16 :=
  if a.getLsbD 0 then (a >>> 1) ^^^ crc16Poly else a >>> 1

/-- One byte of R84: XOR into the low byte, then eight shift steps. -/
def crc16Byte (a : Word16) (b : Byte) : Word16 :=
  (List.range 8).foldl (fun x _ => crc16Shift x) (a ^^^ b.zeroExtend 16)

/-- `crc16(B)` (R84). -/
def crc16 (bytes : List Byte) : Word16 := bytes.foldl crc16Byte crc16Init

/-- `crc16_bytes(c)` (R85): least significant byte first. -/
def crc16Bytes (c : Word16) : List Byte := [lo8 c, hi8 c]

/-- Do the two bytes at `n - 2` and `n - 1` of BUF equal the checksum `c`, low byte first (R87, R134)? -/
def State.trailerMatches (s : State) (n : Nat) (c : Word16) : Bool :=
  s.bufByte (n - 2) == lo8 c && s.bufByte (n - 1) == hi8 c

/-- The Complete step of CRC8CHK (R82). -/
def completeCrc8chk (s : State) : Result :=
  if s.len ≠ 3#8 then .next (s.raise .operandRange)
  else guardBuf s 0 3 (.next (s.setRem (rem24 (s.bufByte 0) (s.bufByte 1) (s.bufByte 2))).finish)

/-- The Complete step of CRC16 (R86). -/
def completeCrc16 (s : State) : Result :=
  if s.bufMax < s.len.toNat then .next (s.raise .operandRange)
  else .next (s.setCrc16 (crc16 (s.memRead 0 s.len.toNat))).finish

/-- The Complete step of CRC16CHK (R87). -/
def completeCrc16chk (s : State) : Result :=
  let k := s.len.toNat
  if k < 2 ∨ s.bufMax < k then .next (s.raise .operandRange)
  else
    let c := crc16 (s.memRead 0 (k - 2))
    .next ((s.setCrc16 c).setMatched (s.trailerMatches k c)).finish

/-- CRC8CHK (R82). -/
def execCrc8chk (s : State) : Result := pureOp .crc8chk completeCrc8chk s
/-- CRC16 (R86). -/
def execCrc16 (s : State) : Result := pureOp .crc16 completeCrc16 s
/-- CRC16CHK (R87). -/
def execCrc16chk (s : State) : Result := pureOp .crc16chk completeCrc16chk s

end Sys2Proof.Machine
end

