-- ==== Sys2Proof/Machine/Convert.lean ====
section
/-! DEFINITION. The register-to-physical converters (41_convert.md): CONVT, CONVRH, CONVCO2. The arithmetic is on
mathematical integers and is narrowed once, at the store (R103, R108). -/

namespace Sys2Proof.Machine

/-- `conv_t(raw)` (R100): the numerator of the temperature over 6553600, for any natural `raw`. -/
def convT (raw : Nat) : Int := 17572 * (raw : Int) - 307036160

/-- `conv_rh(raw)` (R101): the numerator of the relative humidity over 65536. -/
def convRh (raw : Nat) : Int := 125 * (raw : Int) - 393216

/-- `conv_co2(raw)` (R102): the word is the concentration in ppm. -/
def convCo2 (raw : Word16) : Word16 := raw

/-- `x[TNUM] <- conv_t(raw)` as a 32-bit two's complement value (R104). -/
def State.storeTemperature (s : State) (raw : Word16) : State := s.setTnum (BitVec.ofInt 32 (convT raw.toNat))

/-- `x[RHNUM] <- conv_rh(raw)` as a 32-bit two's complement value (R105). -/
def State.storeHumidity (s : State) (raw : Word16) : State := s.setRhnum (BitVec.ofInt 32 (convRh raw.toNat))

/-- `x[CO2] <- conv_co2(raw)` (R106, R134). -/
def State.storeCo2 (s : State) (raw : Word16) : State := s.setCo2 (convCo2 raw)

/-- CONVT (R104): RAW is used as it stands, unmasked. -/
def execConvt (s : State) : Result := pureOp .convt (fun t => .next (t.storeTemperature t.raw).finish) s
/-- CONVRH (R105). -/
def execConvrh (s : State) : Result := pureOp .convrh (fun t => .next (t.storeHumidity t.raw).finish) s
/-- CONVCO2 (R106). -/
def execConvco2 (s : State) : Result := pureOp .convco2 (fun t => .next (t.storeCo2 t.raw).finish) s

end Sys2Proof.Machine
end

