-- ==== Sys2Proof/Machine/Serial.lean ====
section
/-! DEFINITION. The serial request/response framer (43_serial_framer.md): RDSC, RDCO2, and the serial frames
(30_encoding.md R69, R70). -/

namespace Sys2Proof.Machine

/-- REQ (R6): the fixed request before its checksum. -/
def serialRequest : List Byte := [0xFE#8, 0x04#8, 0x00#8, 0x00#8, 0x00#8, 0x04#8]

/-- TXFRAME (R131): the request followed by its CRC-16, low byte first. -/
def txFrame : List Byte := serialRequest ++ crc16Bytes (crc16 serialRequest)

/-- OFF_STATUS (R6, R70). -/
def offStatus : Nat := 3
/-- OFF_CO2 (R6, R70): high byte; the low byte follows. -/
def offCo2 : Nat := 9

/-- SerWriteDone taken in SER_WRITE (R133). -/
def onSerWriteDone (r : Ack) (s : State) : State :=
  match r with
  | .err => s.raise .busError
  | .ok => s.goOn .serRead .serRead

/-- How many bytes of a response are stored: `m = min(n, BUF_MAX)` (R134). -/
def State.storedLength (s : State) (bytes : List Byte) : Nat := min bytes.length s.bufMax

/-- What a received response leaves before it is judged (R134): its first `m` bytes in BUF, and LEN. -/
def State.storeSerFrame (s : State) (bytes : List Byte) : State :=
  (s.memWrite 0 (bytes.take (s.storedLength bytes))).setLen (BitVec.ofNat 8 (s.storedLength bytes))

/-- The CO2 word of the response in BUF (R70). -/
def State.frameCo2 (s : State) : Word16 := be16 (s.bufByte offCo2) (s.bufByte (offCo2 + 1))

/-- The checksum step of R134 on a stored response of `n` bytes: CRC16 and MATCH, then ChecksumError or extraction.
`extract` is what the command does with the status byte. -/
def judgeSerFrame (extract : State → State) (n : Nat) (s : State) : State :=
  let c := crc16 (s.memRead 0 (n - 2))
  let t := (s.setCrc16 c).setMatched (s.trailerMatches n c)
  if s.trailerMatches n c then ((extract t).storeCo2 t.frameCo2).finish
  else t.raise .checksumError

/-- SerReadDone taken in SER_READ (R134). Every access lies inside BUF: `m <= BUF_MAX`, and past the guard
`11 <= n <= BUF_MAX` (R53, R137). -/
def onSerReadDone (extract : State → State) (r : SerReadResult) (s : State) : State :=
  match r with
  | .err => s.raise .busError
  | .ok bytes =>
    if bytes.length < Config.respMin ∨ s.bufMax < bytes.length then
      (s.storeSerFrame bytes).raise .malformedFrame
    else judgeSerFrame extract bytes.length (s.storeSerFrame bytes)

/-- The walk of a serial command (R132 to R134): `IDLE -> SER_WRITE -> SER_READ -> IDLE`. An event the operation does not
await changes nothing (R173). -/
def serialOp (i : Instr) (extract : State → State) (s : State) : Result :=
  match s.seq, s.event with
  | .idle, _ => .next (s.accept (encode i) .serWrite (some (.serWrite txFrame)))
  | .serWrite, some (.serWriteDone r) => .next (onSerWriteDone r s.tick)
  | .serRead, some (.serReadDone r) => .next (onSerReadDone extract r s.tick)
  | _, _ => .next s.tick

/-- RDSC (R135): STATUS takes the status byte at its fixed offset. -/
def execRdsc (s : State) : Result := serialOp .rdsc (fun t => t.setStatus (t.bufByte offStatus)) s
/-- RDCO2 (R136): the status byte is discarded. -/
def execRdco2 (s : State) : Result := serialOp .rdco2 (fun t => t) s

end Sys2Proof.Machine
end

