-- ==== Sys2Proof/Machine/TwoWire.lean ====
section
/-! DEFINITION. The two-wire transaction sequencer (42_twowire_sequencer.md): MEAS, MEAST, MEASRH. -/

namespace Sys2Proof.Machine

/-- RAW_MASK (R6, R115): clears the two low status bits of the raw word. -/
def rawMask : Word16 := 0xFFFC#16

/-- The TwWrite request with command byte `c`: one byte to the fixed address, empty payload (R67, R112). -/
def twWriteRequest (c : Byte) : Request := .twWrite Config.twAddr c []

/-- The DlyStart request (R113). -/
def settleRequest : Request := .dlyStart Config.settleMs

/-- The TwRead request (R114). -/
def twReadRequest : Request := .twRead Config.twAddr 3

/-- TwWriteDone taken in TW_WRITE (R113). -/
def onTwWriteDone (r : Ack) (s : State) : State :=
  match r with
  | .err => s.raise .busError
  | .ok => s.goOn .twSettle settleRequest

/-- DlyDone taken in TW_SETTLE (R114). -/
def onDlyDone (s : State) : State := s.goOn .twRead twReadRequest

/-- What a received 3-byte frame leaves whether it is valid or not (R115): BUF[0..2], LEN, REM, VALID. -/
def State.storeTwFrame (s : State) (b0 b1 b2 : Byte) : State :=
  ((s.memWrite 0 [b0, b1, b2]).setLen 3#8).setRem (rem24 b0 b1 b2)

/-- The cleaned raw value of a frame (R115 step 5). -/
def cleanedRaw (b0 b1 : Byte) : Word16 := be16 b0 b1 &&& rawMask

/-- TwReadDone taken in TW_READ (R115). The check is on the bytes as received; `convert` is the accessor's conversion of
the cleaned raw value. -/
def onTwReadDone (convert : State → Word16 → State) (r : TwReadResult) (s : State) : Result :=
  match r with
  | .err => .next (s.raise .busError)
  | .ok b0 b1 b2 =>
    guardBuf s 0 3
      (if rem24 b0 b1 b2 ≠ 0#24 then .next ((s.storeTwFrame b0 b1 b2).raise .checksumError)
       else .next (convert ((s.storeTwFrame b0 b1 b2).setRaw (cleanedRaw b0 b1)) (cleanedRaw b0 b1)).finish)

/-- The walk of a two-wire command (R112 to R115): `IDLE -> TW_WRITE -> TW_SETTLE -> TW_READ -> IDLE`. An event the
operation does not await changes nothing (R173). -/
def twoWireOp (i : Instr) (code : Byte) (convert : State → Word16 → State) (s : State) : Result :=
  match s.seq, s.event with
  | .idle, _ => .next (s.accept (encode i) .twWrite (some (twWriteRequest code)))
  | .twWrite, some (.twWriteDone r) => .next (onTwWriteDone r s.tick)
  | .twSettle, some .dlyDone => .next (onDlyDone s.tick)
  | .twRead, some (.twReadDone r) => onTwReadDone convert r s.tick
  | _, _ => .next s.tick

/-- MEAS imm8 (R116): converts nothing. -/
def execMeas (imm : Byte) (s : State) : Result := twoWireOp (.meas imm) imm (fun t _ => t) s
/-- MEAST (R117): then the temperature conversion of the cleaned raw value. -/
def execMeast (s : State) : Result := twoWireOp .meast Config.cmdTemp State.storeTemperature s
/-- MEASRH (R118): then the humidity conversion of the cleaned raw value. -/
def execMeasrh (s : State) : Result := twoWireOp .measrh Config.cmdHum State.storeHumidity s

end Sys2Proof.Machine
end

