-- ==== Sys2Proof/Machine/Dispatch.lean ====
section
/-! DEFINITION. One arm per command. `exec i s` is the step command `i` makes in state `s`: its acceptance where SEQ is
IDLE, its `Complete` step or the handling of the awaited response where SEQ says so (log 10). -/

namespace Sys2Proof.Machine

def exec (i : Instr) (s : State) : Host.Outcome State Fault Refusal :=
  match i with
  | .crc8chk => Sys2Proof.Machine.execCrc8chk s
  | .crc16 => Sys2Proof.Machine.execCrc16 s
  | .crc16chk => Sys2Proof.Machine.execCrc16chk s
  | .convt => Sys2Proof.Machine.execConvt s
  | .convrh => Sys2Proof.Machine.execConvrh s
  | .convco2 => Sys2Proof.Machine.execConvco2 s
  | .meas imm => Sys2Proof.Machine.execMeas imm s
  | .meast => Sys2Proof.Machine.execMeast s
  | .measrh => Sys2Proof.Machine.execMeasrh s
  | .rdsc => Sys2Proof.Machine.execRdsc s
  | .rdco2 => Sys2Proof.Machine.execRdco2 s

end Sys2Proof.Machine
end

