-- ==== Sys2Proof/Machine/HostPort.lean ====
section
/-! DEFINITION. The host port (20_memory.md R40 to R45), command acceptance (30_encoding.md R60), and which command an
event in flight belongs to (10_state.md R19, R24). -/

namespace Sys2Proof.Machine

/-- The buffer byte an index names, if it names one: `0x80 + i`, `0 <= i < BUF_MAX` (R41). -/
def bufIndex (s : State) (a : Index) : Option Nat :=
  if 0x80 ≤ a.toNat ∧ a.toNat - 0x80 < s.bufMax then some (a.toNat - 0x80) else none

/-- The 32 bits `HostRead(a)` returns (R41, R42, R45). -/
def readIndex (s : State) (a : Index) : Word32 :=
  match a.toNat with
  | 0x00 => s.cmd.zeroExtend 32
  | 0x01 => s.statWord
  | 0x02 => s.len.zeroExtend 32
  | 0x03 => s.raw.zeroExtend 32
  | 0x04 => s.tnum
  | 0x05 => s.rhnum
  | 0x06 => s.co2.zeroExtend 32
  | 0x07 => s.status.zeroExtend 32
  | 0x08 => s.rem.zeroExtend 32
  | 0x09 => s.crc16.zeroExtend 32
  | _ =>
    match bufIndex s a with
    | some i => (s.bufByte i).zeroExtend 32
    | none => 0#32

/-- A host read (R42): the data goes to the host's port, nothing else changes. -/
def onHostRead (a : Index) (s : State) : State := { s.tick with rdata := some (readIndex s a) }

/-- A host write to an index other than CMD while idle (R43, R45). -/
def writeIndex (a : Index) (v : Word32) (s : State) : State :=
  match a.toNat with
  | 0x02 => s.setLen (v.extractLsb' 0 8)
  | 0x03 => s.setRaw (v.extractLsb' 0 16)
  | _ =>
    match bufIndex s a with
    | some i => s.setBufByte i (v.extractLsb' 0 8)
    | none => s

/-- Command acceptance (R60): a legal word starts its command, an illegal one is reported (R155). -/
def acceptCommand (w : Word16) (s : State) : Result :=
  match decode w with
  | .instr i => exec i s
  | .reservedOpcode _ => .next (s.illegal w)
  | .immediateNotZero _ _ => .next (s.illegal w)

/-- A host write (R43), dropped while BUSY (R44). The upper data bits a register does not use are ignored. -/
def onHostWrite (a : Index) (v : Word32) (s : State) : Result :=
  if s.busy then .next s.tick
  else if a = 0x00#8 then acceptCommand (v.extractLsb' 0 16) s
  else .next (writeIndex a v s.tick)

/-- The command whose step an event would be: SEQ gives its kind and CMD.OP, tested as the step rules test it, the command
(R19, R82, R86, R87, R104 to R106, R115, R134; log 11). -/
def inFlight (s : State) : Option Instr :=
  match s.seq with
  | .idle => none
  | .exec =>
    match s.cmdOp.toNat with
    | 0x01 => some .crc8chk
    | 0x02 => some .crc16
    | 0x03 => some .crc16chk
    | 0x04 => some .convt
    | 0x05 => some .convrh
    | 0x06 => some .convco2
    | _ => none
  | .twWrite | .twSettle | .twRead =>
    match s.cmdOp.toNat with
    | 0x08 => some .meast
    | 0x09 => some .measrh
    | _ => some (.meas s.cmdImm)
  | .serWrite | .serRead =>
    match s.cmdOp.toNat with
    | 0x0A => some .rdsc
    | _ => some .rdco2

/-- `Complete`, or a collaborator's response: a step of the command in flight, or nothing where none is (R173). -/
def onOwnEvent (s : State) : Result :=
  match inFlight s with
  | some i => exec i s
  | none => .next s.tick

/-- What one event does (R48). -/
def onEvent (ev : Event) (s : State) : Result :=
  match ev with
  | .hostRead a => .next (onHostRead a s)
  | .hostWrite a v => onHostWrite a v s
  | .complete => onOwnEvent s
  | .twWriteDone _ => onOwnEvent s
  | .dlyDone => onOwnEvent s
  | .twReadDone _ => onOwnEvent s
  | .serWriteDone _ => onOwnEvent s
  | .serReadDone _ => onOwnEvent s

/-- One clock edge (R30, R48): reset wins over a coinciding event (R170); an edge without event, or no edge at all, leaves
everything as it is (R178). -/
def onEdge (s : State) : Result :=
  match s.script with
  | [] => .next s.tick
  | e :: _ =>
    if e.rst then .next s.resetEdge
    else
      match e.event with
      | none => .next s.tick
      | some ev => onEvent ev s

/-- The request outstanding at a collaborator, as a function of SEQ and CMD (R24). -/
def State.outstanding (s : State) : Option Request :=
  match s.seq with
  | .idle => none
  | .exec => none
  | .twWrite =>
    match s.cmdOp.toNat with
    | 0x08 => some (twWriteRequest Config.cmdTemp)
    | 0x09 => some (twWriteRequest Config.cmdHum)
    | _ => some (twWriteRequest s.cmdImm)
  | .twSettle => some settleRequest
  | .twRead => some twReadRequest
  | .serWrite => some (.serWrite txFrame)
  | .serRead => some .serRead

/-- A command word on the host port: the low 16 bits of a write to index 0x00 (R60), the bits above `nbits` zero. -/
def commandEdge (nbits w : Nat) : Edge :=
  { rst := false, event := some (.hostWrite 0x00#8 (BitVec.ofNat 32 (w % 2 ^ min nbits 16))) }

/-- Bring the command word to the block: it is the next edge's host write, and the block is idle so that it is a command
(R60, log 2). -/
def placeCommand (s : State) (nbits w : Nat) : State :=
  { s with seq := .idle, script := commandEdge nbits w :: s.script }

end Sys2Proof.Machine
end

