-- ==== Sys2Proof/Machine/HostProgram.lean ====
section
/-! DEFINITION. Host programs (30_encoding.md R66): the lines a host writes, their host transactions, and the expansions of
the pseudo-instructions LDBUF, APPENDCRC and WAIT (log 18). -/

namespace Sys2Proof.Machine

/-- A line's target: a register name of R41, or BUF[i]. -/
inductive Target where
  | cmd | stat | len | raw | tnum | rhnum | co2 | status | rem | crc16
  | buf (i : Nat)
  deriving DecidableEq, Repr

/-- `index(<target>)` (R41). -/
def targetIndex : Target → Index
  | .cmd => 0x00#8
  | .stat => 0x01#8
  | .len => 0x02#8
  | .raw => 0x03#8
  | .tnum => 0x04#8
  | .rhnum => 0x05#8
  | .co2 => 0x06#8
  | .status => 0x07#8
  | .rem => 0x08#8
  | .crc16 => 0x09#8
  | .buf i => BitVec.ofNat 8 (0x80 + i)

/-- One host line (R66). -/
inductive HostLine where
  /-- `WR <target>, <value>`. -/
  | wr (t : Target) (v : Word32)
  /-- `RD <target>`. -/
  | rd (t : Target)
  /-- `<MNEMONIC>`, `MEAS <imm8>`. -/
  | command (i : Instr)
  deriving DecidableEq, Repr

/-- The host transaction of a line (R66). -/
def lineEvent : HostLine → Event
  | .wr t v => .hostWrite (targetIndex t) v
  | .rd t => .hostRead (targetIndex t)
  | .command i => .hostWrite 0x00#8 ((encode i).zeroExtend 32)

/-- The clock edge of a line. -/
def lineEdge (l : HostLine) : Edge := { rst := false, event := some (lineEvent l) }

/-- The clock edge of an environment line `ENV <event>` (R66). -/
def envEdge (ev : Event) : Edge := { rst := false, event := some ev }

/-- The writes `WR BUF[i], b_i` from index `i` up. -/
def bufLines (i : Nat) : List Byte → List HostLine
  | [] => []
  | b :: bs => .wr (.buf i) (b.zeroExtend 32) :: bufLines (i + 1) bs

/-- `LDBUF b0 .. b(k-1)` (R66). -/
def ldbuf (bytes : List Byte) : List HostLine :=
  bufLines 0 bytes ++ [.wr .len (BitVec.ofNat 32 bytes.length)]

/-- `APPENDCRC` with LEN = k, where the read of CRC16 gives `c` (R66). -/
def appendcrc (k : Nat) (c : Word16) : List HostLine :=
  [.rd .crc16, .wr (.buf k) ((lo8 c).zeroExtend 32), .wr (.buf (k + 1)) ((hi8 c).zeroExtend 32),
    .wr .len (BitVec.ofNat 32 (k + 2))]

/-- `WAIT` repeats `RD STAT` until the word read has BUSY = 0 (R66): its test. -/
def waitOver (stat : Word32) : Bool := !stat.getLsbD 0

end Sys2Proof.Machine
end

