-- ==== Sys2Proof/Machine/Pins.lean ====
section
/-! DEFINITION. The pin binding of the ports (10_state.md R26 to R30), as views: output pins of the latest step, and the
event a port's input pins stand for in one clock cycle. No rule depends on the pins (section 6 of 10_state.md), and no step
reads this file's definitions; which of two ports' events comes first in one cycle is not stated, so each port has its own
view (log 16). -/

namespace Sys2Proof.Machine

/-- The outputs of the two-wire, serial and delay ports (R27, R28, R29). -/
structure OutPins where
  twReq : Bool
  twRnw : Bool
  twAddr : BitVec 7
  twReg : Byte
  twN : BitVec 2
  swReq : Bool
  swData : BitVec 64
  srReq : Bool
  dlyStart : Bool
  dlyMs : BitVec 16
  deriving DecidableEq, Repr

/-- No request pulse. The spec gives the data pins beside a low request pulse no value: that they show 0 here is the model's
choice (DESIGN CHOICE, log 19). -/
def OutPins.quiet : OutPins where
  twReq := false
  twRnw := false
  twAddr := 0
  twReg := 0
  twN := 0
  swReq := false
  swData := 0
  srReq := false
  dlyStart := false
  dlyMs := 0

/-- Eight bytes on `sw_data[63:0]`, byte 0 of the frame in bits 63:56 (R28). -/
def packFrame (bytes : List Byte) : BitVec 64 :=
  bytes.foldl (fun acc b => (acc <<< 8) ||| b.zeroExtend 64) 0

/-- The output pins of the request a step emitted (R27, R28, R29): one request, one pulse. R27 gives `tw_reg` no value on a
read request: that it shows 0 there is the model's choice (DESIGN CHOICE, log 19). -/
def outPins (s : State) : OutPins :=
  match s.request with
  | none => OutPins.quiet
  | some (.twWrite addr reg payload) =>
    { OutPins.quiet with twReq := true, twAddr := addr, twReg := reg, twN := BitVec.ofNat 2 payload.length }
  | some (.twRead addr n) =>
    { OutPins.quiet with twReq := true, twRnw := true, twAddr := addr, twN := BitVec.ofNat 2 n }
  | some (.serWrite bytes) => { OutPins.quiet with swReq := true, swData := packFrame bytes }
  | some .serRead => { OutPins.quiet with srReq := true }
  | some (.dlyStart ms) => { OutPins.quiet with dlyStart := true, dlyMs := ms }

/-- The host port in one cycle (R26): `h_valid`, `h_write`, `h_addr`, `h_wdata`. -/
def hostPins (valid write : Bool) (addr : Index) (wdata : Word32) : Option Event :=
  if valid then some (if write then .hostWrite addr wdata else .hostRead addr) else none

/-- The two-wire port in one cycle (R27): `tw_done`, `tw_err`, `tw_rdata = {b0, b1, b2}`. `tw_done` answers the read
request where one is outstanding, else a write. R27 gives `tw_err` and `tw_rdata` no cycle: that they are read in the cycle
of `tw_done` alone, 1 on `tw_err` meaning `err`, is the model's choice (DESIGN CHOICE, log 20). -/
def twPins (s : State) (done err : Bool) (rdata : Word24) : Option Event :=
  if done then
    match s.seq with
    | .twRead =>
      if err then some (.twReadDone .err)
      else some (.twReadDone (.ok (rdata.extractLsb' 16 8) (rdata.extractLsb' 8 8) (rdata.extractLsb' 0 8)))
    | _ => some (.twWriteDone (if err then .err else .ok))
  else none

/-- The serial write response in one cycle (R28): `sw_done`, `sw_err`. R28 gives `sw_err` no cycle: that it is read in the
cycle of `sw_done` alone, 1 meaning `err`, is the model's choice (DESIGN CHOICE, log 20). -/
def swPins (done err : Bool) : Option Event :=
  if done then some (.serWriteDone (if err then .err else .ok)) else none

/-- The serial read pins of one cycle (R28): `sr_bvalid`, `sr_byte`, `sr_done`, `sr_err`. -/
structure SrPins where
  bvalid : Bool
  byte : Byte
  done : Bool
  err : Bool
  deriving DecidableEq, Repr

/-- The serial read response over the cycles since the request: the bytes pulsed in order, ended by `sr_done` after the
last byte (R28), so a byte pulsed in the cycle of `sr_done` is none of them (DEDUCED, log 16). `got` holds the bytes
received so far. R28 gives `sr_err` no cycle: that it is read in the cycle of `sr_done` alone, 1 meaning `err`, and ignored in
every earlier cycle of the response, is the model's choice, and so is that `sr_byte` is read in the cycle of its `sr_bvalid`
pulse (DESIGN CHOICE, log 20). -/
def srPins (got : List Byte) : List SrPins → Option Event
  | [] => none
  | p :: rest =>
    if p.done then some (.serReadDone (if p.err then .err else .ok got))
    else srPins (if p.bvalid then got ++ [p.byte] else got) rest

/-- The delay port in one cycle (R29): `dly_done`. -/
def dlyPins (done : Bool) : Option Event := if done then some .dlyDone else none

end Sys2Proof.Machine
end

