-- ==== Sys2Proof/Safety.lean ====
section
/-! DEFINITION. The terms claims are made in: the architectural part of a state, which events a sequencer state awaits, and
the invariant of the block. -/

namespace Sys2Proof.Machine

/-- The architectural part of a state: everything but the edges to come and the one-cycle outputs. -/
def State.arch (s : State) : State := { s with script := [], request := none, rdata := none }

/-- The events each sequencer state awaits (R21, R173). -/
def SeqState.awaits : SeqState → Event → Bool
  | .exec, .complete => true
  | .twWrite, .twWriteDone _ => true
  | .twSettle, .dlyDone => true
  | .twRead, .twReadDone _ => true
  | .serWrite, .serWriteDone _ => true
  | .serRead, .serReadDone _ => true
  | _, _ => false

/-- An edge that is not a reset and carries nothing, a host access, or a response that `q` does not await. -/
def Edge.idleFor (q : SeqState) (e : Edge) : Bool :=
  !e.rst &&
    match e.event with
    | none => true
    | some ev => !q.awaits ev

/-- The waiting states of a command's walk (R21). -/
def walk : Instr → List SeqState
  | .crc8chk => [.exec]
  | .crc16 => [.exec]
  | .crc16chk => [.exec]
  | .convt => [.exec]
  | .convrh => [.exec]
  | .convco2 => [.exec]
  | .meas _ => [.twWrite, .twSettle, .twRead]
  | .meast => [.twWrite, .twSettle, .twRead]
  | .measrh => [.twWrite, .twSettle, .twRead]
  | .rdsc => [.serWrite, .serRead]
  | .rdco2 => [.serWrite, .serRead]

/-- SEQ and CMD agree: while an operation is in flight, CMD holds a legal word whose command has SEQ on its walk. -/
def State.seqFitsCmd (s : State) : Prop :=
  s.seq = .idle ∨ ∃ i, decode s.cmd = .instr i ∧ s.seq ∈ walk i

/-- The block's invariant: it rules out states no run reaches. -/
structure State.Inv (s : State) : Prop where
  /-- BUF_MAX is in the range of R5. -/
  bufMax_range : Config.bufMaxLow ≤ s.bufMax ∧ s.bufMax ≤ Config.bufMaxHigh
  /-- BUF is in canonical form. -/
  buf_wf : Memory.wf s.buf
  /-- BUF has no byte at or above BUF_MAX (R23, R53). -/
  buf_bound : ∀ c ∈ s.buf, c.1 < s.bufMax
  /-- Bits 23 to 8 of REM are 0 (R16). -/
  rem_small : s.rem.toNat < 256
  /-- VALID says that the remainder in REM is 0 (R20). -/
  valid_rem : s.valid = true → s.rem = 0#24
  /-- TNUM is in the range of R12. -/
  tnum_range : -307036160 ≤ s.tnum.toInt ∧ s.tnum.toInt ≤ 844544860
  /-- RHNUM is in the range of R13. -/
  rhnum_range : -393216 ≤ s.rhnum.toInt ∧ s.rhnum.toInt ≤ 7798659
  /-- SEQ and CMD agree (R19, R21). -/
  seq_cmd : s.seqFitsCmd
  /-- While an operation is in flight, DONE and ERR are clear (R60). -/
  busy_clear : s.seq ≠ .idle → s.done = false ∧ s.err = .none
  /-- A fault code stands only with DONE (R20). -/
  err_done : s.err ≠ .none → s.done = true
  /-- A request just emitted is the outstanding one (R24). -/
  request_outstanding : s.request = none ∨ s.request = s.outstanding

/-- The sequencer state a command's walk starts in (R60, R112, R132). -/
def startState : Instr → SeqState
  | .meas _ | .meast | .measrh => .twWrite
  | .rdsc | .rdco2 => .serWrite
  | _ => .exec

/-- The request a command's acceptance emits (R60, R112, R132). -/
def startRequest : Instr → Option Request
  | .meas imm => some (.twWrite 0x40#7 imm [])
  | .meast => some (.twWrite 0x40#7 Config.cmdTemp [])
  | .measrh => some (.twWrite 0x40#7 Config.cmdHum [])
  | .rdsc | .rdco2 => some (.serWrite [0xFE#8, 0x04#8, 0x00#8, 0x00#8, 0x00#8, 0x04#8, 0xE5#8, 0xC6#8])
  | _ => none

/-- The three two-wire commands. -/
def isTwoWire : Instr → Bool
  | .meas _ | .meast | .measrh => true
  | _ => false

/-- The two serial commands. -/
def isSerial : Instr → Bool
  | .rdsc | .rdco2 => true
  | _ => false

/-- The six pure commands. -/
def isPure (i : Instr) : Bool := !isTwoWire i && !isSerial i

/-- The bytes `B` end in the CRC-16 of the bytes before the last two, low byte first (R70, R85). -/
def trailerOk (bytes : List Byte) : Prop :=
  bytes.drop (bytes.length - 2)
    = [(crc16 (bytes.take (bytes.length - 2))).extractLsb' 0 8, (crc16 (bytes.take (bytes.length - 2))).extractLsb' 8 8]

/-- Carry-less product over GF(2) of a 16-bit polynomial and the 9-bit polynomial 0x131. -/
def gf2Mul131 (q : BitVec 16) : Word24 :=
  (List.range 16).foldl (fun acc i => if q.getLsbD i then acc ^^^ (0x000131#24 <<< i) else acc) 0#24

/-- The edge of a response or of the block's own step. -/
def own (ev : Event) : Edge := { rst := false, event := some ev }

/-- What a 3-byte frame leaves in a state, valid or not. -/
def withTwFrame (s : State) (b0 b1 b2 : Byte) : State :=
  { s with buf := Memory.writeList s.buf 0 [b0, b1, b2], len := 3#8, rem := rem24 b0 b1 b2,
           valid := rem24 b0 b1 b2 == 0#24 }

/-- What a serial response leaves in a state before it is judged. -/
def withSerFrame (s : State) (bytes : List Byte) : State :=
  { s with buf := Memory.writeList s.buf 0 (bytes.take (min bytes.length s.bufMax)),
           len := BitVec.ofNat 8 (min bytes.length s.bufMax) }


end Sys2Proof.Machine
end

