-- ==== Sys2Proof/Certificates/Slice0/Obligations.lean ====
section
/-! DEFINITION. The statements for the provers. Docstrings name the rule of spec/ each formalises. `s.tick` is the state
after a clock edge passes: the edge used up, the one-cycle outputs low, everything else as in `s` (log 1, log 7). -/

open Sys2Proof Sys2Proof.Machine

-- Encoding

/-- Decode and encode agree, both ways (R61 to R65). -/
def Obligations.DecodeEncodeAgree : Prop :=
  (∀ i, decode (encode i) = .instr i) ∧ ∀ w i, decode w = .instr i → encode i = w

/-- R64, whole. -/
def Obligations.LegalWordsAndIllegalWords : Prop :=
  (∀ w : Word16,
    (∃ i, decode w = .instr i) ↔
      w.extractLsb' 0 8 = 0x07#8 ∨
        (((0x01#8 ≤ w.extractLsb' 0 8 ∧ w.extractLsb' 0 8 ≤ 0x06#8) ∨ (0x08#8 ≤ w.extractLsb' 0 8 ∧ w.extractLsb' 0 8 ≤ 0x0B#8))
          ∧ w.extractLsb' 8 8 = 0x00#8)) ∧
  Nat.card { w : Word16 // ∃ i, decode w = .instr i } = 266 ∧
  (∀ (s : State) (v : Word32) (rest : List Edge), s.seq = .idle → s.script = own (.hostWrite 0x00#8 v) :: rest →
    (¬ ∃ i, decode (v.extractLsb' 0 16) = .instr i) →
    step s = .next { s.tick with cmd := v.extractLsb' 0 16, done := true, err := .illegalCommand })

/-- R63: a word selects a row iff `w & mask == match`. -/
def Obligations.OpcodeMapByMatchAndMask : Prop :=
  ∀ w : Word16,
    (decode w = .instr .crc8chk ↔ w &&& 0xFFFF#16 = 0x0001#16) ∧
    (decode w = .instr .crc16 ↔ w &&& 0xFFFF#16 = 0x0002#16) ∧
    (decode w = .instr .crc16chk ↔ w &&& 0xFFFF#16 = 0x0003#16) ∧
    (decode w = .instr .convt ↔ w &&& 0xFFFF#16 = 0x0004#16) ∧
    (decode w = .instr .convrh ↔ w &&& 0xFFFF#16 = 0x0005#16) ∧
    (decode w = .instr .convco2 ↔ w &&& 0xFFFF#16 = 0x0006#16) ∧
    ((∃ imm, decode w = .instr (.meas imm)) ↔ w &&& 0x00FF#16 = 0x0007#16) ∧
    (decode w = .instr .meast ↔ w &&& 0xFFFF#16 = 0x0008#16) ∧
    (decode w = .instr .measrh ↔ w &&& 0xFFFF#16 = 0x0009#16) ∧
    (decode w = .instr .rdsc ↔ w &&& 0xFFFF#16 = 0x000A#16) ∧
    (decode w = .instr .rdco2 ↔ w &&& 0xFFFF#16 = 0x000B#16)

/-- Words written out from R61 and R63 decode to their commands (a sanity statement). -/
def Obligations.WordsOfTheTableDecode : Prop :=
  decode 0b0000000000000001#16 = .instr .crc8chk ∧ decode 0b0000000000000100#16 = .instr .convt ∧
  decode 0b1110001100000111#16 = .instr (.meas 0xE3#8) ∧ decode 0b0000000000001000#16 = .instr .meast ∧
  decode 0b0000000000001011#16 = .instr .rdco2 ∧
  decode 0b0000000100001000#16 = .immediateNotZero 0x08#8 0x01#8 ∧ decode 0b0000000000000000#16 = .reservedOpcode 0x00#8 ∧
  decode 0b0000000000001100#16 = .reservedOpcode 0x0C#8

-- Steps and acceptance

/-- A step runs the decoded command: at its acceptance, and at each event its walk awaits (the shape of `exec` is the
model's, log 10). -/
def Obligations.StepRunsTheDecodedCommand : Prop :=
  (∀ (s : State) (i : Instr) (v : Word32) (rest : List Edge), s.seq = .idle →
    s.script = own (.hostWrite 0x00#8 v) :: rest → decode (v.extractLsb' 0 16) = .instr i → step s = exec i s) ∧
  (∀ (s : State) (i : Instr) (ev : Event) (rest : List Edge), s.script = own ev :: rest → s.seq.awaits ev = true →
    decode s.cmd = .instr i → s.seq ∈ walk i → step s = exec i s)

/-- R60, on the fields of the word: acceptance of a legal and of an illegal word, and a write to CMD while busy. -/
def Obligations.CommandAcceptance : Prop :=
  ∀ (s : State) (v : Word32) (rest : List Edge), s.script = own (.hostWrite 0x00#8 v) :: rest →
    let w : Word16 := v.extractLsb' 0 16
    let op := w.extractLsb' 0 8
    let imm := w.extractLsb' 8 8
    (s.seq ≠ .idle → step s = .next s.tick) ∧
    (s.seq = .idle → legal op imm = false →
      step s = .next { s.tick with cmd := w, done := true, err := .illegalCommand }) ∧
    (s.seq = .idle → legal op imm = true → op ≤ 0x06#8 →
      step s = .next { s.tick with cmd := w, done := false, err := .none, seq := .exec }) ∧
    (s.seq = .idle → legal op imm = true → 0x07#8 ≤ op → op ≤ 0x09#8 →
      step s = .next { s.tick with cmd := w, done := false, err := .none, seq := .twWrite,
                                   request := some (.twWrite 0x40#7 (if op = 0x07#8 then imm else if op = 0x08#8 then Config.cmdTemp else Config.cmdHum) []) }) ∧
    (s.seq = .idle → legal op imm = true → 0x0A#8 ≤ op →
      step s = .next { s.tick with cmd := w, done := false, err := .none, seq := .serWrite,
                                   request := some (.serWrite [0xFE#8, 0x04#8, 0x00#8, 0x00#8, 0x00#8, 0x04#8, 0xE5#8, 0xC6#8]) })

/-- Every command can be started from every idle state (R60, R112, R132). -/
def Obligations.ExecStartsEachCommand : Prop :=
  ∀ (i : Instr) (s : State), s.seq = .idle →
    exec i s = .next { s.tick with cmd := encode i, done := false, err := .none, seq := startState i, request := startRequest i }

-- Pure commands

/-- R82: CRC8CHK's Complete step, both branches, with its frame. -/
def Obligations.Crc8chkCompletes : Prop :=
  encode .crc8chk = 0x0001#16 ∧
  ∀ s : State, s.seq = .exec → s.event = some .complete → Config.bufMaxLow ≤ s.bufMax →
    exec .crc8chk s = .next
      (if s.len = 3#8 then
        { s.tick with rem := rem24 (Memory.read s.buf 0) (Memory.read s.buf 1) (Memory.read s.buf 2),
                      valid := rem24 (Memory.read s.buf 0) (Memory.read s.buf 1) (Memory.read s.buf 2) == 0#24,
                      done := true, seq := .idle }
       else { s.tick with err := .operandRange, done := true, seq := .idle })

/-- R86: CRC16's Complete step, both branches, with its frame. -/
def Obligations.Crc16Completes : Prop :=
  encode .crc16 = 0x0002#16 ∧
  ∀ s : State, s.seq = .exec → s.event = some .complete →
    exec .crc16 s = .next
      (if s.len.toNat ≤ s.bufMax then
        { s.tick with crc16 := crc16 (Memory.readList s.buf 0 s.len.toNat), done := true, seq := .idle }
       else { s.tick with err := .operandRange, done := true, seq := .idle })

/-- R87: CRC16CHK's Complete step, both branches, with its frame. -/
def Obligations.Crc16chkCompletes : Prop :=
  encode .crc16chk = 0x0003#16 ∧
  ∀ s : State, s.seq = .exec → s.event = some .complete →
    exec .crc16chk s = .next
      (if 2 ≤ s.len.toNat ∧ s.len.toNat ≤ s.bufMax then
        { s.tick with crc16 := crc16 (Memory.readList s.buf 0 (s.len.toNat - 2)),
                      matched := (Memory.read s.buf (s.len.toNat - 2)
                                    == (crc16 (Memory.readList s.buf 0 (s.len.toNat - 2))).extractLsb' 0 8
                                  && Memory.read s.buf (s.len.toNat - 1)
                                    == (crc16 (Memory.readList s.buf 0 (s.len.toNat - 2))).extractLsb' 8 8),
                      done := true, seq := .idle }
       else { s.tick with err := .operandRange, done := true, seq := .idle })

/-- R104: CONVT. -/
def Obligations.ConvtCompletes : Prop :=
  encode .convt = 0x0004#16 ∧
  ∀ s : State, s.seq = .exec → s.event = some .complete →
    ∃ t, exec .convt s = .next { s.tick with tnum := t, done := true, seq := .idle } ∧
      t.toInt = 17572 * (s.raw.toNat : Int) - 307036160

/-- R105: CONVRH. -/
def Obligations.ConvrhCompletes : Prop :=
  encode .convrh = 0x0005#16 ∧
  ∀ s : State, s.seq = .exec → s.event = some .complete →
    ∃ h, exec .convrh s = .next { s.tick with rhnum := h, done := true, seq := .idle } ∧
      h.toInt = 125 * (s.raw.toNat : Int) - 393216

/-- R106: CONVCO2. -/
def Obligations.Convco2Completes : Prop :=
  encode .convco2 = 0x0006#16 ∧
  ∀ s : State, s.seq = .exec → s.event = some .complete →
    exec .convco2 s = .next { s.tick with co2 := s.raw, done := true, seq := .idle }

/-- R156: a length a checksum command does not accept: nothing but DONE, ERR and SEQ changes. -/
def Obligations.OperandRangeWritesOnlyStat : Prop :=
  ∀ (s : State) (i : Instr), s.seq = .exec → s.event = some .complete →
    (i = .crc8chk ∧ s.len ≠ 3#8) ∨ (i = .crc16 ∧ s.bufMax < s.len.toNat) ∨
      (i = .crc16chk ∧ (s.len.toNat < 2 ∨ s.bufMax < s.len.toNat)) →
    exec i s = .next { s.tick with err := .operandRange, done := true, seq := .idle }

/-- The frame of the pure commands: BUF, RAW, LEN, CMD, the collaborators' ports and every register but the command's own
results are unchanged. -/
def Obligations.PureCommandsFrame : Prop :=
  ∀ (i : Instr) (s t : State), isPure i = true → s.seq = .exec → exec i s = .next t →
    t.raw = s.raw ∧ t.len = s.len ∧ t.cmd = s.cmd ∧ t.status = s.status ∧ t.bufMax = s.bufMax ∧ t.request = none ∧
    (∀ a, Memory.read t.buf a = Memory.read s.buf a) ∧ t.script = s.script.tail ∧
    (i ≠ .convt → t.tnum = s.tnum) ∧ (i ≠ .convrh → t.rhnum = s.rhnum) ∧ (i ≠ .convco2 → t.co2 = s.co2) ∧
    (i ≠ .crc8chk → t.rem = s.rem ∧ t.valid = s.valid) ∧ (i ≠ .crc16 → i ≠ .crc16chk → t.crc16 = s.crc16) ∧
    (i ≠ .crc16chk → t.matched = s.matched) ∧
    (i = .convt ∨ i = .convrh ∨ i = .convco2 → t.err = s.err)

-- Two-wire commands

/-- R113: TwWriteDone in TW_WRITE. -/
def Obligations.TwWriteDoneStartsTheSettleDelay : Prop :=
  ∀ (i : Instr) (s : State), isTwoWire i = true → s.seq = .twWrite →
    (s.event = some (.twWriteDone .ok) →
      exec i s = .next { s.tick with seq := .twSettle, request := some (.dlyStart 50#16) }) ∧
    (s.event = some (.twWriteDone .err) →
      exec i s = .next { s.tick with err := .busError, done := true, seq := .idle })

/-- R114: DlyDone in TW_SETTLE. -/
def Obligations.DlyDoneStartsTheRead : Prop :=
  ∀ (i : Instr) (s : State), isTwoWire i = true → s.seq = .twSettle → s.event = some .dlyDone →
    exec i s = .next { s.tick with seq := .twRead, request := some (.twRead 0x40#7 3) }

/-- R115, whole: a valid frame gives each command its own effect; a frame that fails the check, and `err`, give none. -/
def Obligations.TwReadDoneValidatesThenExtracts : Prop :=
  (∀ (s : State) (b0 b1 b2 imm : Byte), s.seq = .twRead → s.event = some (.twReadDone (.ok b0 b1 b2)) →
    Config.bufMaxLow ≤ s.bufMax → rem24 b0 b1 b2 = 0#24 →
    exec (.meas imm) s = .next { withTwFrame s.tick b0 b1 b2 with raw := (b0 ++ b1) &&& 0xFFFC#16, done := true, seq := .idle } ∧
    (∃ t, exec .meast s = .next
        { withTwFrame s.tick b0 b1 b2 with raw := (b0 ++ b1) &&& 0xFFFC#16, tnum := t, done := true, seq := .idle } ∧
      t.toInt = 17572 * (((b0 ++ b1 : Word16) &&& 0xFFFC#16).toNat : Int) - 307036160) ∧
    (∃ h, exec .measrh s = .next
        { withTwFrame s.tick b0 b1 b2 with raw := (b0 ++ b1) &&& 0xFFFC#16, rhnum := h, done := true, seq := .idle } ∧
      h.toInt = 125 * (((b0 ++ b1 : Word16) &&& 0xFFFC#16).toNat : Int) - 393216)) ∧
  (∀ (i : Instr) (s : State), isTwoWire i = true → s.seq = .twRead →
    (∀ b0 b1 b2, s.event = some (.twReadDone (.ok b0 b1 b2)) → Config.bufMaxLow ≤ s.bufMax → rem24 b0 b1 b2 ≠ 0#24 →
      exec i s = .next { withTwFrame s.tick b0 b1 b2 with err := .checksumError, done := true, seq := .idle }) ∧
    (s.event = some (.twReadDone .err) →
      exec i s = .next { s.tick with err := .busError, done := true, seq := .idle }))

/-- The frame of the two-wire commands' steps after acceptance. The bytes stored are BUF[0..2], in the step that takes a
read answered `ok` and in no other. -/
def Obligations.TwoWireCommandsFrame : Prop :=
  ∀ (i : Instr) (s t : State), isTwoWire i = true → s.seq ≠ .idle → exec i s = .next t →
    t.co2 = s.co2 ∧ t.status = s.status ∧ t.crc16 = s.crc16 ∧ t.matched = s.matched ∧ t.cmd = s.cmd ∧
    t.bufMax = s.bufMax ∧ t.script = s.script.tail ∧
    (i ≠ .meast → t.tnum = s.tnum) ∧ (i ≠ .measrh → t.rhnum = s.rhnum) ∧
    (∀ a, 3 ≤ a → Memory.read t.buf a = Memory.read s.buf a) ∧
    ((∀ b0 b1 b2, s.event ≠ some (.twReadDone (.ok b0 b1 b2))) ∨ s.seq ≠ .twRead →
      (∀ a, Memory.read t.buf a = Memory.read s.buf a) ∧ t.len = s.len ∧ t.rem = s.rem ∧ t.valid = s.valid ∧
        t.raw = s.raw ∧ t.tnum = s.tnum ∧ t.rhnum = s.rhnum)

-- Serial commands

/-- The transmitted frame (R131) is the request followed by its own CRC-16, low byte first, the same for both commands; it is
not stored in BUF, and its checksum is not written to CRC16. The spec marks the checksum 0xC6E5 and the bytes E5 C6 as
derived from R84 and R85. -/
def Obligations.TransmittedFrame : Prop :=
  crc16 [0xFE#8, 0x04#8, 0x00#8, 0x00#8, 0x00#8, 0x04#8] = 0xC6E5#16 ∧
  txFrame = [0xFE#8, 0x04#8, 0x00#8, 0x00#8, 0x00#8, 0x04#8, 0xE5#8, 0xC6#8] ∧ trailerOk txFrame ∧
  ∀ (i : Instr) (s : State), isSerial i = true → s.seq = .idle →
    exec i s = .next { s.tick with cmd := encode i, done := false, err := .none, seq := .serWrite,
                                   request := some (.serWrite txFrame) }

/-- R133: SerWriteDone in SER_WRITE. -/
def Obligations.SerWriteDoneStartsTheRead : Prop :=
  ∀ (i : Instr) (s : State), isSerial i = true → s.seq = .serWrite →
    (s.event = some (.serWriteDone .ok) → exec i s = .next { s.tick with seq := .serRead, request := some .serRead }) ∧
    (s.event = some (.serWriteDone .err) →
      exec i s = .next { s.tick with err := .busError, done := true, seq := .idle })

/-- R134 and R137, whole: a response that passes the guard and the check gives each command its own effect, the fields
taken from the received bytes themselves; a bad length, a bad trailer, and `err` give none. -/
def Obligations.SerReadDoneGuardsValidatesThenExtracts : Prop :=
  (∀ (s : State) (bytes : List Byte) (h11 : 11 ≤ bytes.length), s.seq = .serRead →
    s.event = some (.serReadDone (.ok bytes)) → Memory.wf s.buf → bytes.length ≤ s.bufMax → trailerOk bytes →
    exec .rdsc s = .next
      { withSerFrame s.tick bytes with crc16 := crc16 (bytes.take (bytes.length - 2)), matched := true,
                                       status := bytes[3], co2 := bytes[9] ++ bytes[10], done := true, seq := .idle } ∧
    exec .rdco2 s = .next
      { withSerFrame s.tick bytes with crc16 := crc16 (bytes.take (bytes.length - 2)), matched := true,
                                       co2 := bytes[9] ++ bytes[10], done := true, seq := .idle }) ∧
  (∀ (i : Instr) (s : State), isSerial i = true → s.seq = .serRead → Memory.wf s.buf →
    (∀ bytes, s.event = some (.serReadDone (.ok bytes)) → bytes.length < 11 ∨ s.bufMax < bytes.length →
      exec i s = .next { withSerFrame s.tick bytes with err := .malformedFrame, done := true, seq := .idle }) ∧
    (∀ bytes, s.event = some (.serReadDone (.ok bytes)) → 11 ≤ bytes.length → bytes.length ≤ s.bufMax → ¬ trailerOk bytes →
      exec i s = .next
        { withSerFrame s.tick bytes with crc16 := crc16 (bytes.take (bytes.length - 2)), matched := false,
                                         err := .checksumError, done := true, seq := .idle }) ∧
    (s.event = some (.serReadDone .err) →
      exec i s = .next { s.tick with err := .busError, done := true, seq := .idle }))

/-- The frame of the serial commands' steps after acceptance. The bytes stored are BUF[0..m-1] with `m = min(n, BUF_MAX)`, in
the step that takes a read of `n` bytes answered `ok`, and in no other. -/
def Obligations.SerialCommandsFrame : Prop :=
  ∀ (i : Instr) (s t : State), isSerial i = true → s.seq ≠ .idle → exec i s = .next t →
    t.raw = s.raw ∧ t.tnum = s.tnum ∧ t.rhnum = s.rhnum ∧ t.rem = s.rem ∧ t.valid = s.valid ∧ t.cmd = s.cmd ∧
    t.bufMax = s.bufMax ∧ t.script = s.script.tail ∧ (i = .rdco2 → t.status = s.status) ∧
    (∀ bytes, s.event = some (.serReadDone (.ok bytes)) →
      ∀ a, min bytes.length s.bufMax ≤ a → Memory.read t.buf a = Memory.read s.buf a) ∧
    ((∀ bytes, s.event ≠ some (.serReadDone (.ok bytes))) ∨ s.seq ≠ .serRead →
      (∀ a, Memory.read t.buf a = Memory.read s.buf a) ∧ t.len = s.len ∧ t.crc16 = s.crc16 ∧ t.matched = s.matched ∧
        t.status = s.status ∧ t.co2 = s.co2)

-- Host port and reset

/-- R42 with the map of R41: what a host read returns, in every state, and that it changes nothing. -/
def Obligations.HostReadReturnsTheRegister : Prop :=
  ∀ (s : State) (a : Index) (rest : List Edge), s.script = own (.hostRead a) :: rest →
    ∃ d, step s = .next { s.tick with rdata := some d } ∧
      (a = 0x00#8 → d = s.cmd.zeroExtend 32) ∧ (a = 0x01#8 → d = s.statWord) ∧ (a = 0x02#8 → d = s.len.zeroExtend 32) ∧
      (a = 0x03#8 → d = s.raw.zeroExtend 32) ∧ (a = 0x04#8 → d = s.tnum) ∧ (a = 0x05#8 → d = s.rhnum) ∧
      (a = 0x06#8 → d = s.co2.zeroExtend 32) ∧ (a = 0x07#8 → d = s.status.zeroExtend 32) ∧
      (a = 0x08#8 → d = s.rem.zeroExtend 32) ∧ (a = 0x09#8 → d = s.crc16.zeroExtend 32) ∧
      (0x0A ≤ a.toNat → a.toNat < 0x80 → d = 0#32) ∧
      (∀ k, k < s.bufMax → a.toNat = 0x80 + k → d = (Memory.read s.buf k).zeroExtend 32) ∧
      (0x80 + s.bufMax ≤ a.toNat → d = 0#32)

/-- R43, whole: a host write while idle, to every index. -/
def Obligations.HostWriteWhileIdle : Prop :=
  ∀ (s : State) (a : Index) (v : Word32) (rest : List Edge), s.script = own (.hostWrite a v) :: rest → s.seq = .idle →
    (a = 0x00#8 →
      (∀ i, decode (v.extractLsb' 0 16) = .instr i →
        step s = .next { s.tick with cmd := v.extractLsb' 0 16, done := false, err := .none, seq := startState i,
                                     request := startRequest i }) ∧
      ((¬ ∃ i, decode (v.extractLsb' 0 16) = .instr i) →
        step s = .next { s.tick with cmd := v.extractLsb' 0 16, done := true, err := .illegalCommand })) ∧
    (a = 0x02#8 → step s = .next { s.tick with len := v.extractLsb' 0 8 }) ∧
    (a = 0x03#8 → step s = .next { s.tick with raw := v.extractLsb' 0 16 }) ∧
    (∀ k, k < s.bufMax → a.toNat = 0x80 + k →
      step s = .next { s.tick with buf := Memory.write s.buf k (v.extractLsb' 0 8) }) ∧
    (a ≠ 0x00#8 → a ≠ 0x02#8 → a ≠ 0x03#8 → a.toNat < 0x80 ∨ 0x80 + s.bufMax ≤ a.toNat → step s = .next s.tick)

/-- R44: a host write while BUSY has no effect at all. -/
def Obligations.HostWriteWhileBusyIsDropped : Prop :=
  ∀ (s : State) (a : Index) (v : Word32) (rest : List Edge), s.script = own (.hostWrite a v) :: rest → s.seq ≠ .idle →
    step s = .next s.tick

/-- R20: the fields of STAT, with the numbers of R151 and R21. -/
def Obligations.StatWordFields : Prop :=
  ∀ s : State,
    s.statWord.getLsbD 0 = decide (s.seq ≠ .idle) ∧ s.statWord.getLsbD 1 = s.done ∧
    s.statWord.getLsbD 2 = decide (s.err ≠ .none) ∧ s.statWord.getLsbD 3 = s.valid ∧ s.statWord.getLsbD 4 = s.matched ∧
    s.statWord.extractLsb' 5 3 = 0#3 ∧ s.statWord.extractLsb' 16 16 = 0#16 ∧
    s.statWord.extractLsb' 8 4 =
      (match s.err with
        | .none => 0#4 | .checksumError => 1#4 | .malformedFrame => 2#4 | .busError => 3#4 | .illegalCommand => 4#4
        | .operandRange => 5#4) ∧
    s.statWord.extractLsb' 12 4 =
      (match s.seq with
        | .idle => 0#4 | .exec => 1#4 | .twWrite => 2#4 | .twSettle => 3#4 | .twRead => 4#4 | .serWrite => 5#4
        | .serRead => 6#4)

/-- R170: reset, from every state, whatever event coincides. That BUF_MAX and the edges still to come stand is the model's
choice (log 1, log 4). -/
def Obligations.ResetWinsAndClearsEverything : Prop :=
  ∀ (s : State) (ev : Option Event) (rest : List Edge), s.script = { rst := true, event := ev } :: rest →
    step s = .next
      { raw := 0, tnum := 0, rhnum := 0, co2 := 0, status := 0, rem := 0, crc16 := 0, len := 0, cmd := 0, done := false,
        valid := false, matched := false, err := .none, seq := .idle, buf := [], bufMax := s.bufMax, script := rest,
        request := none, rdata := none }

/-- R32: the reset state as the host sees it. -/
def Obligations.ResetStateReadsZero : Prop :=
  (∀ a : Index, readIndex State.reset a = 0#32) ∧ State.reset.seq = .idle ∧ State.reset.outstanding = none ∧
  (∀ k, Memory.read State.reset.buf k = 0#8)

/-- R173: a response the sequencer state does not await changes nothing. -/
def Obligations.UnawaitedResponseIsIgnored : Prop :=
  ∀ (s : State) (ev : Event) (rest : List Edge), s.script = own ev :: rest → s.seq.awaits ev = false →
    (∀ a v, ev ≠ .hostWrite a v) → (∀ a, ev ≠ .hostRead a) → ev ≠ .complete → step s = .next s.tick

-- Whole-machine rules

/-- The block's invariant holds after reset. -/
def Obligations.ResetSatisfiesTheBlockInvariant : Prop := State.reset.Inv

/-- Every step from every state that meets the block's invariant keeps it: BUF canonical and inside BUF_MAX, REM below 256,
TNUM and RHNUM in their ranges, SEQ and CMD in agreement, DONE and ERR clear while busy, requests as R24 says. -/
def Obligations.EveryStepKeepsTheBlockInvariant : Prop :=
  ∀ s t : State, s.Inv → step s = .next t → t.Inv

/-- The block never stops: with BUF_MAX in its range every step answers a next state (R53, R164). -/
def Obligations.EveryStepAnswersANextState : Prop :=
  ∀ s : State, Config.bufMaxLow ≤ s.bufMax → ∃ t, step s = .next t

/-- R21: the only orders SEQ ever takes. -/
def Obligations.SeqTakesOnlyItsOrders : Prop :=
  ∀ s t : State, step s = .next t → t.seq ≠ s.seq →
    (∃ e rest, s.script = e :: rest ∧ e.rst = true ∧ t.seq = .idle) ∨
    (s.seq = .idle ∧ (t.seq = .exec ∨ t.seq = .twWrite ∨ t.seq = .serWrite) ∧
      ∃ v i, s.event = some (.hostWrite 0x00#8 v) ∧ decode (v.extractLsb' 0 16) = .instr i ∧ t.seq = startState i) ∨
    (s.seq = .exec ∧ s.event = some .complete ∧ t.seq = .idle) ∨
    (s.seq = .twWrite ∧ s.event = some (.twWriteDone .ok) ∧ t.seq = .twSettle) ∨
    (s.seq = .twWrite ∧ s.event = some (.twWriteDone .err) ∧ t.seq = .idle) ∨
    (s.seq = .twSettle ∧ s.event = some .dlyDone ∧ t.seq = .twRead) ∨
    (s.seq = .twRead ∧ (∃ r, s.event = some (.twReadDone r)) ∧ t.seq = .idle) ∨
    (s.seq = .serWrite ∧ s.event = some (.serWriteDone .ok) ∧ t.seq = .serRead) ∨
    (s.seq = .serWrite ∧ s.event = some (.serWriteDone .err) ∧ t.seq = .idle) ∨
    (s.seq = .serRead ∧ (∃ r, s.event = some (.serReadDone r)) ∧ t.seq = .idle)

/-- R176, R121, R138, R139: when each request is emitted, and so that nothing is re-issued. -/
def Obligations.RequestsAreEmittedOnlyInTheirSteps : Prop :=
  ∀ (s t : State) (r : Request), step s = .next t → t.request = some r →
    ((∃ reg, r = .twWrite 0x40#7 reg []) ∧ s.seq = .idle ∧ ∃ v, s.event = some (.hostWrite 0x00#8 v)) ∨
    (r = .serWrite [0xFE#8, 0x04#8, 0x00#8, 0x00#8, 0x00#8, 0x04#8, 0xE5#8, 0xC6#8] ∧ s.seq = .idle ∧
      ∃ v, s.event = some (.hostWrite 0x00#8 v)) ∨
    (r = .dlyStart 50#16 ∧ s.seq = .twWrite ∧ s.event = some (.twWriteDone .ok)) ∨
    (r = .twRead 0x40#7 3 ∧ s.seq = .twSettle ∧ s.event = some .dlyDone) ∨
    (r = .serRead ∧ s.seq = .serWrite ∧ s.event = some (.serWriteDone .ok))

/-- R24: the outstanding request is the one the table gives; it is the one emitted on entry to the waiting state, and no step
but entry to a waiting state emits one. -/
def Obligations.OutstandingRequestIsTheOneEmitted : Prop :=
  (∀ s : State,
    (s.seq = .twWrite →
      (opField s.cmd = 0x07#8 → s.outstanding = some (.twWrite 0x40#7 (immField s.cmd) [])) ∧
      (opField s.cmd = 0x08#8 → s.outstanding = some (.twWrite 0x40#7 Config.cmdTemp [])) ∧
      (opField s.cmd = 0x09#8 → s.outstanding = some (.twWrite 0x40#7 Config.cmdHum []))) ∧
    (s.seq = .twSettle → s.outstanding = some (.dlyStart 50#16)) ∧
    (s.seq = .twRead → s.outstanding = some (.twRead 0x40#7 3)) ∧
    (s.seq = .serWrite → s.outstanding = some (.serWrite [0xFE#8, 0x04#8, 0x00#8, 0x00#8, 0x00#8, 0x04#8, 0xE5#8, 0xC6#8])) ∧
    (s.seq = .serRead → s.outstanding = some .serRead) ∧
    (s.seq = .idle ∨ s.seq = .exec → s.outstanding = none)) ∧
  ∀ s t : State, step s = .next t →
    (t.seq ≠ s.seq → t.request = t.outstanding) ∧
    (t.seq = s.seq → t.seq ≠ .idle → t.outstanding = s.outstanding ∧ t.request = none)

/-- R31, R158: a sequencer operation writes a measurement register only in the step in which its frame passed validation. -/
def Obligations.OnlyValidatedFramesBecomeMeasurements : Prop :=
  ∀ s t : State, Memory.wf s.buf → step s = .next t → (∀ e rest, s.script = e :: rest → e.rst = false) →
    s.seq ≠ .idle → s.seq ≠ .exec →
    (t.raw = s.raw ∧ t.tnum = s.tnum ∧ t.rhnum = s.rhnum ∧ t.co2 = s.co2 ∧ t.status = s.status) ∨
    (s.seq = .twRead ∧ t.done = true ∧ t.err = s.err ∧ t.co2 = s.co2 ∧ t.status = s.status ∧
      ∃ b0 b1 b2, s.event = some (.twReadDone (.ok b0 b1 b2)) ∧ rem24 b0 b1 b2 = 0#24) ∨
    (s.seq = .serRead ∧ t.done = true ∧ t.err = s.err ∧ t.raw = s.raw ∧ t.tnum = s.tnum ∧ t.rhnum = s.rhnum ∧
      ∃ bytes, s.event = some (.serReadDone (.ok bytes)) ∧ 11 ≤ bytes.length ∧ bytes.length ≤ s.bufMax ∧ trailerOk bytes)

/-- R158: a step that raises a fault ends the operation and writes no measurement register. -/
def Obligations.FaultsWriteNoMeasurement : Prop :=
  ∀ s t : State, step s = .next t → s.seq ≠ .idle → s.err = .none → t.err ≠ .none →
    t.seq = .idle ∧ t.done = true ∧ t.request = none ∧ t.raw = s.raw ∧ t.tnum = s.tnum ∧ t.rhnum = s.rhnum ∧ t.co2 = s.co2 ∧
    t.status = s.status ∧ t.cmd = s.cmd ∧ (s.seq = .exec → t.rem = s.rem ∧ t.crc16 = s.crc16 ∧ t.buf = s.buf)

/-- R164: DONE and ERR stand until the next command word is taken, or reset. Everything stands at an edge without event, where
no edge is left, and at a Complete outside EXEC (R48; log 3, log 6). -/
def Obligations.DoneAndErrStandUntilTheNextCommand : Prop :=
  (∀ s t : State, s.seq = .idle → step s = .next t →
    (∀ e rest, s.script = e :: rest → e.rst = false) → (∀ v, s.event ≠ some (.hostWrite 0x00#8 v)) →
    t.done = s.done ∧ t.err = s.err ∧ t.seq = .idle ∧ t.cmd = s.cmd) ∧
  (∀ s : State, s.script = [] → step s = .next s.tick) ∧
  (∀ (s : State) (rest : List Edge), s.script = { rst := false, event := none } :: rest → step s = .next s.tick) ∧
  (∀ (s : State) (rest : List Edge), s.script = own .complete :: rest → s.seq ≠ .exec → step s = .next s.tick)

/-- R22: no operation reads VALID, MATCH, DONE or ERR: two states that differ in these alone step, unless the step is a host
read, to states that differ in these alone, and each of the four is then either the same in both or carried over unchanged in
both. -/
def Obligations.NoOperationReadsTheFlags : Prop :=
  ∀ (s t : State) (v m d : Bool) (e : ErrKind), (∀ a, s.event ≠ some (.hostRead a)) → step s = .next t →
    ∃ t', step { s with valid := v, matched := m, done := d, err := e } = .next t' ∧
      { t' with valid := t.valid, matched := t.matched, done := t.done, err := t.err } = t ∧
      (t'.valid = t.valid ∨ (t.valid = s.valid ∧ t'.valid = v)) ∧
      (t'.matched = t.matched ∨ (t.matched = s.matched ∧ t'.matched = m)) ∧
      (t'.done = t.done ∨ (t.done = s.done ∧ t'.done = d)) ∧ (t'.err = t.err ∨ (t.err = s.err ∧ t'.err = e))

/-- R178: if no awaited response and no reset ever comes, SEQ keeps its waiting state, BUSY stays 1 and nothing changes,
however long and whatever the host does. -/
def Obligations.NoWatchdog : Prop :=
  ∀ (n : Nat) (s : State), s.seq ≠ .idle → (∀ e ∈ s.script, Edge.idleFor s.seq e = true) →
    ∃ t, Sys2Proof.core.run n s = .next t ∧ State.arch t = s.arch

-- Whole operations

/-- R179, R51: however many edges pass between a pure command's acceptance and its Complete step, and whatever host
accesses they carry, the command's result is the one it has on the state the command was given in. -/
def Obligations.PureCommandRunsToItsResult : Prop :=
  ∀ (i : Instr) (s : State) (between rest : List Edge), isPure i = true → s.seq = .idle → Config.bufMaxLow ≤ s.bufMax →
    (∀ e ∈ between, Edge.idleFor .exec e = true) →
    s.script = own (.hostWrite 0x00#8 ((encode i).zeroExtend 32)) :: between ++ own .complete :: rest →
    ∃ t : State, Sys2Proof.core.run (between.length + 2) s = .next t ∧ t.seq = .idle ∧ t.done = true ∧ t.script = rest ∧
      exec i { s with cmd := encode i, done := false, err := .none, seq := .exec, script := own .complete :: rest } = .next t

/-- R111, R116 to R118, R122: a two-wire command given in an idle state, answered `ok`, the delay over, and a valid frame
read, ends with the measurement, whatever host accesses and stray responses fall between the awaited ones. -/
def Obligations.TwoWireTransactionRunsToItsMeasurement : Prop :=
  ∀ (i : Instr) (s : State) (n1 n2 n3 rest : List Edge) (b0 b1 b2 : Byte), isTwoWire i = true → s.seq = .idle →
    Config.bufMaxLow ≤ s.bufMax → rem24 b0 b1 b2 = 0#24 →
    (∀ e ∈ n1, Edge.idleFor .twWrite e = true) → (∀ e ∈ n2, Edge.idleFor .twSettle e = true) →
    (∀ e ∈ n3, Edge.idleFor .twRead e = true) →
    s.script = own (.hostWrite 0x00#8 ((encode i).zeroExtend 32)) :: n1 ++ own (.twWriteDone .ok) :: n2
      ++ own .dlyDone :: n3 ++ own (.twReadDone (.ok b0 b1 b2)) :: rest →
    ∃ t : State, Sys2Proof.core.run (n1.length + n2.length + n3.length + 4) s = .next t ∧ t.script = rest ∧
      t.seq = .idle ∧ t.done = true ∧ t.err = .none ∧ t.cmd = encode i ∧ t.raw = (b0 ++ b1) &&& 0xFFFC#16 ∧
      t.len = 3#8 ∧ t.rem = 0#24 ∧ t.valid = true ∧ t.buf = Memory.writeList s.buf 0 [b0, b1, b2] ∧
      (if i = .meast then t.tnum.toInt = 17572 * (t.raw.toNat : Int) - 307036160 else t.tnum = s.tnum) ∧
      (if i = .measrh then t.rhnum.toInt = 125 * (t.raw.toNat : Int) - 393216 else t.rhnum = s.rhnum) ∧
      t.co2 = s.co2 ∧ t.status = s.status ∧ t.crc16 = s.crc16 ∧ t.matched = s.matched ∧ t.bufMax = s.bufMax

/-- R140, R135, R136: a serial command given in an idle state, answered `ok`, and a well-formed response read, ends with the
measurement, whatever host accesses and stray responses fall between the awaited ones. -/
def Obligations.SerialTransactionRunsToItsMeasurement : Prop :=
  ∀ (i : Instr) (s : State) (n1 n2 rest : List Edge) (bytes : List Byte) (h11 : 11 ≤ bytes.length), isSerial i = true →
    s.seq = .idle → Memory.wf s.buf → bytes.length ≤ s.bufMax → trailerOk bytes →
    (∀ e ∈ n1, Edge.idleFor .serWrite e = true) → (∀ e ∈ n2, Edge.idleFor .serRead e = true) →
    s.script = own (.hostWrite 0x00#8 ((encode i).zeroExtend 32)) :: n1 ++ own (.serWriteDone .ok) :: n2
      ++ own (.serReadDone (.ok bytes)) :: rest →
    ∃ t : State, Sys2Proof.core.run (n1.length + n2.length + 3) s = .next t ∧ t.script = rest ∧ t.seq = .idle ∧
      t.done = true ∧ t.err = .none ∧ t.cmd = encode i ∧ t.co2 = bytes[9] ++ bytes[10] ∧
      t.status = (if i = .rdsc then bytes[3] else s.status) ∧ t.matched = true ∧
      t.crc16 = crc16 (bytes.take (bytes.length - 2)) ∧ t.len = BitVec.ofNat 8 bytes.length ∧
      t.buf = Memory.writeList s.buf 0 bytes ∧ t.raw = s.raw ∧ t.tnum = s.tnum ∧ t.rhnum = s.rhnum ∧ t.rem = s.rem ∧
      t.valid = s.valid ∧ t.bufMax = s.bufMax

/-- R66: LDBUF leaves its bytes at the front of BUF and their number in LEN, and nothing else changes. -/
def Obligations.LdbufLoadsTheBuffer : Prop :=
  ∀ (s : State) (bytes : List Byte) (rest : List Edge), s.seq = .idle → Config.bufMaxLow ≤ s.bufMax →
    s.bufMax ≤ Config.bufMaxHigh → bytes.length ≤ s.bufMax → s.script = (ldbuf bytes).map lineEdge ++ rest →
    ∃ t : State, Sys2Proof.core.run (bytes.length + 1) s = .next t ∧ t.script = rest ∧
      State.arch t = { s.arch with buf := Memory.writeList s.buf 0 bytes, len := BitVec.ofNat 8 bytes.length }

/-- The round trip of DOC0 section 8 as a run of the block (R66, R86, R87, R90): CRC16 over the first LEN bytes, the host
appends the checksum it reads, CRC16CHK then reports a match, for every content of BUF. -/
def Obligations.AppendedChecksumMatches : Prop :=
  ∀ (s : State) (c : Word16) (rest : List Edge), s.seq = .idle → Memory.wf s.buf → Config.bufMaxLow ≤ s.bufMax →
    s.bufMax ≤ Config.bufMaxHigh → s.len.toNat + 2 ≤ s.bufMax → c = crc16 (Memory.readList s.buf 0 s.len.toNat) →
    s.script = lineEdge (.command .crc16) :: envEdge .complete :: (appendcrc s.len.toNat c).map lineEdge
      ++ lineEdge (.command .crc16chk) :: envEdge .complete :: rest →
    ∃ t3 t8 : State, Sys2Proof.core.run 3 s = .next t3 ∧ t3.rdata = some (c.zeroExtend 32) ∧
      Sys2Proof.core.run 8 s = .next t8 ∧ t8.matched = true ∧ t8.crc16 = c ∧ t8.done = true ∧ t8.err = .none ∧ t8.seq = .idle ∧
      t8.len.toNat = s.len.toNat + 2 ∧ t8.script = rest

-- The algorithms

/-- What R89 derives from R80, items (a) to (d) and (f): the remainder is below 256, the third byte is only ever XORed in,
one checksum byte validates a data word, any change of it is detected, the all-zero frame is valid. -/
def Obligations.Rem24DetectsEveryChangeOfTheChecksumByte : Prop :=
  (∀ b0 b1 b2, (rem24 b0 b1 b2).toNat < 256) ∧
  (∀ b0 b1 b2, rem24 b0 b1 b2 = rem24 b0 b1 0#8 ^^^ b2.zeroExtend 24) ∧
  (∀ b0 b1 b2, crc8Valid b0 b1 b2 = true ↔ b2 = crc8Gen b0 b1) ∧
  (∀ b0 b1 b2 x, crc8Valid b0 b1 b2 = true → x ≠ 0#8 → crc8Valid b0 b1 (b2 ^^^ x) = false) ∧
  crc8Valid 0#8 0#8 0#8 = true

/-- What R89 (e) derives: `rem24` is the remainder of the division over GF(2) of the 24-bit frame by 0x131. -/
def Obligations.Rem24IsTheRemainderBy131 : Prop :=
  ∀ b0 b1 b2 : Byte, ∃ q : BitVec 16, (b0 ++ b1 ++ b2 : Word24) = gf2Mul131 q ^^^ rem24 b0 b1 b2 ∧ (rem24 b0 b1 b2).toNat < 256

/-- What R90 (b) and (c) derive: a frame's CRC-16 is zero iff its last two bytes are the CRC-16 of the bytes before them, low
byte first; in particular it is zero when they have been appended. -/
def Obligations.Crc16IsZeroIffTheTrailerMatches : Prop :=
  (∀ bytes : List Byte, crc16 (bytes ++ crc16Bytes (crc16 bytes)) = 0#16) ∧
  (∀ bytes : List Byte, 2 ≤ bytes.length → (crc16 bytes = 0#16 ↔ trailerOk bytes))

/-- R100, R101 as rationals: the integer numerators are DOC0's formulas exactly, for every natural `raw`. -/
def Obligations.ConvertersAreTheFormulasExactly : Prop :=
  ∀ raw : Nat,
    ((convT raw : Int) : ℚ) / 6553600 = -46.85 + 175.72 * raw / 65536 ∧
    ((convRh raw : Int) : ℚ) / 65536 = -6 + 125 * raw / 65536
end

