-- ==== Sys2Proof/Laws/State.lean ====
section
/-! SUPPORT. What each register update does to each field of State, one lemma per field, all by definition. -/

namespace Sys2Proof.Machine

@[simp] theorem State.tick_raw (s : State) : (s.tick).raw = s.raw := rfl
@[simp] theorem State.tick_tnum (s : State) : (s.tick).tnum = s.tnum := rfl
@[simp] theorem State.tick_rhnum (s : State) : (s.tick).rhnum = s.rhnum := rfl
@[simp] theorem State.tick_co2 (s : State) : (s.tick).co2 = s.co2 := rfl
@[simp] theorem State.tick_status (s : State) : (s.tick).status = s.status := rfl
@[simp] theorem State.tick_rem (s : State) : (s.tick).rem = s.rem := rfl
@[simp] theorem State.tick_crc16 (s : State) : (s.tick).crc16 = s.crc16 := rfl
@[simp] theorem State.tick_len (s : State) : (s.tick).len = s.len := rfl
@[simp] theorem State.tick_cmd (s : State) : (s.tick).cmd = s.cmd := rfl
@[simp] theorem State.tick_done (s : State) : (s.tick).done = s.done := rfl
@[simp] theorem State.tick_valid (s : State) : (s.tick).valid = s.valid := rfl
@[simp] theorem State.tick_matched (s : State) : (s.tick).matched = s.matched := rfl
@[simp] theorem State.tick_err (s : State) : (s.tick).err = s.err := rfl
@[simp] theorem State.tick_seq (s : State) : (s.tick).seq = s.seq := rfl
@[simp] theorem State.tick_buf (s : State) : (s.tick).buf = s.buf := rfl
@[simp] theorem State.tick_bufMax (s : State) : (s.tick).bufMax = s.bufMax := rfl
@[simp] theorem State.tick_script (s : State) : (s.tick).script = s.script.tail := rfl
@[simp] theorem State.tick_request (s : State) : (s.tick).request = none := rfl
@[simp] theorem State.tick_rdata (s : State) : (s.tick).rdata = none := rfl

@[simp] theorem State.setRaw_raw (s : State) (v : Word16) : (s.setRaw v).raw = v := rfl
@[simp] theorem State.setRaw_tnum (s : State) (v : Word16) : (s.setRaw v).tnum = s.tnum := rfl
@[simp] theorem State.setRaw_rhnum (s : State) (v : Word16) : (s.setRaw v).rhnum = s.rhnum := rfl
@[simp] theorem State.setRaw_co2 (s : State) (v : Word16) : (s.setRaw v).co2 = s.co2 := rfl
@[simp] theorem State.setRaw_status (s : State) (v : Word16) : (s.setRaw v).status = s.status := rfl
@[simp] theorem State.setRaw_rem (s : State) (v : Word16) : (s.setRaw v).rem = s.rem := rfl
@[simp] theorem State.setRaw_crc16 (s : State) (v : Word16) : (s.setRaw v).crc16 = s.crc16 := rfl
@[simp] theorem State.setRaw_len (s : State) (v : Word16) : (s.setRaw v).len = s.len := rfl
@[simp] theorem State.setRaw_cmd (s : State) (v : Word16) : (s.setRaw v).cmd = s.cmd := rfl
@[simp] theorem State.setRaw_done (s : State) (v : Word16) : (s.setRaw v).done = s.done := rfl
@[simp] theorem State.setRaw_valid (s : State) (v : Word16) : (s.setRaw v).valid = s.valid := rfl
@[simp] theorem State.setRaw_matched (s : State) (v : Word16) : (s.setRaw v).matched = s.matched := rfl
@[simp] theorem State.setRaw_err (s : State) (v : Word16) : (s.setRaw v).err = s.err := rfl
@[simp] theorem State.setRaw_seq (s : State) (v : Word16) : (s.setRaw v).seq = s.seq := rfl
@[simp] theorem State.setRaw_buf (s : State) (v : Word16) : (s.setRaw v).buf = s.buf := rfl
@[simp] theorem State.setRaw_bufMax (s : State) (v : Word16) : (s.setRaw v).bufMax = s.bufMax := rfl
@[simp] theorem State.setRaw_script (s : State) (v : Word16) : (s.setRaw v).script = s.script := rfl
@[simp] theorem State.setRaw_request (s : State) (v : Word16) : (s.setRaw v).request = s.request := rfl
@[simp] theorem State.setRaw_rdata (s : State) (v : Word16) : (s.setRaw v).rdata = s.rdata := rfl

@[simp] theorem State.setTnum_raw (s : State) (v : Word32) : (s.setTnum v).raw = s.raw := rfl
@[simp] theorem State.setTnum_tnum (s : State) (v : Word32) : (s.setTnum v).tnum = v := rfl
@[simp] theorem State.setTnum_rhnum (s : State) (v : Word32) : (s.setTnum v).rhnum = s.rhnum := rfl
@[simp] theorem State.setTnum_co2 (s : State) (v : Word32) : (s.setTnum v).co2 = s.co2 := rfl
@[simp] theorem State.setTnum_status (s : State) (v : Word32) : (s.setTnum v).status = s.status := rfl
@[simp] theorem State.setTnum_rem (s : State) (v : Word32) : (s.setTnum v).rem = s.rem := rfl
@[simp] theorem State.setTnum_crc16 (s : State) (v : Word32) : (s.setTnum v).crc16 = s.crc16 := rfl
@[simp] theorem State.setTnum_len (s : State) (v : Word32) : (s.setTnum v).len = s.len := rfl
@[simp] theorem State.setTnum_cmd (s : State) (v : Word32) : (s.setTnum v).cmd = s.cmd := rfl
@[simp] theorem State.setTnum_done (s : State) (v : Word32) : (s.setTnum v).done = s.done := rfl
@[simp] theorem State.setTnum_valid (s : State) (v : Word32) : (s.setTnum v).valid = s.valid := rfl
@[simp] theorem State.setTnum_matched (s : State) (v : Word32) : (s.setTnum v).matched = s.matched := rfl
@[simp] theorem State.setTnum_err (s : State) (v : Word32) : (s.setTnum v).err = s.err := rfl
@[simp] theorem State.setTnum_seq (s : State) (v : Word32) : (s.setTnum v).seq = s.seq := rfl
@[simp] theorem State.setTnum_buf (s : State) (v : Word32) : (s.setTnum v).buf = s.buf := rfl
@[simp] theorem State.setTnum_bufMax (s : State) (v : Word32) : (s.setTnum v).bufMax = s.bufMax := rfl
@[simp] theorem State.setTnum_script (s : State) (v : Word32) : (s.setTnum v).script = s.script := rfl
@[simp] theorem State.setTnum_request (s : State) (v : Word32) : (s.setTnum v).request = s.request := rfl
@[simp] theorem State.setTnum_rdata (s : State) (v : Word32) : (s.setTnum v).rdata = s.rdata := rfl

@[simp] theorem State.setRhnum_raw (s : State) (v : Word32) : (s.setRhnum v).raw = s.raw := rfl
@[simp] theorem State.setRhnum_tnum (s : State) (v : Word32) : (s.setRhnum v).tnum = s.tnum := rfl
@[simp] theorem State.setRhnum_rhnum (s : State) (v : Word32) : (s.setRhnum v).rhnum = v := rfl
@[simp] theorem State.setRhnum_co2 (s : State) (v : Word32) : (s.setRhnum v).co2 = s.co2 := rfl
@[simp] theorem State.setRhnum_status (s : State) (v : Word32) : (s.setRhnum v).status = s.status := rfl
@[simp] theorem State.setRhnum_rem (s : State) (v : Word32) : (s.setRhnum v).rem = s.rem := rfl
@[simp] theorem State.setRhnum_crc16 (s : State) (v : Word32) : (s.setRhnum v).crc16 = s.crc16 := rfl
@[simp] theorem State.setRhnum_len (s : State) (v : Word32) : (s.setRhnum v).len = s.len := rfl
@[simp] theorem State.setRhnum_cmd (s : State) (v : Word32) : (s.setRhnum v).cmd = s.cmd := rfl
@[simp] theorem State.setRhnum_done (s : State) (v : Word32) : (s.setRhnum v).done = s.done := rfl
@[simp] theorem State.setRhnum_valid (s : State) (v : Word32) : (s.setRhnum v).valid = s.valid := rfl
@[simp] theorem State.setRhnum_matched (s : State) (v : Word32) : (s.setRhnum v).matched = s.matched := rfl
@[simp] theorem State.setRhnum_err (s : State) (v : Word32) : (s.setRhnum v).err = s.err := rfl
@[simp] theorem State.setRhnum_seq (s : State) (v : Word32) : (s.setRhnum v).seq = s.seq := rfl
@[simp] theorem State.setRhnum_buf (s : State) (v : Word32) : (s.setRhnum v).buf = s.buf := rfl
@[simp] theorem State.setRhnum_bufMax (s : State) (v : Word32) : (s.setRhnum v).bufMax = s.bufMax := rfl
@[simp] theorem State.setRhnum_script (s : State) (v : Word32) : (s.setRhnum v).script = s.script := rfl
@[simp] theorem State.setRhnum_request (s : State) (v : Word32) : (s.setRhnum v).request = s.request := rfl
@[simp] theorem State.setRhnum_rdata (s : State) (v : Word32) : (s.setRhnum v).rdata = s.rdata := rfl

@[simp] theorem State.setCo2_raw (s : State) (v : Word16) : (s.setCo2 v).raw = s.raw := rfl
@[simp] theorem State.setCo2_tnum (s : State) (v : Word16) : (s.setCo2 v).tnum = s.tnum := rfl
@[simp] theorem State.setCo2_rhnum (s : State) (v : Word16) : (s.setCo2 v).rhnum = s.rhnum := rfl
@[simp] theorem State.setCo2_co2 (s : State) (v : Word16) : (s.setCo2 v).co2 = v := rfl
@[simp] theorem State.setCo2_status (s : State) (v : Word16) : (s.setCo2 v).status = s.status := rfl
@[simp] theorem State.setCo2_rem (s : State) (v : Word16) : (s.setCo2 v).rem = s.rem := rfl
@[simp] theorem State.setCo2_crc16 (s : State) (v : Word16) : (s.setCo2 v).crc16 = s.crc16 := rfl
@[simp] theorem State.setCo2_len (s : State) (v : Word16) : (s.setCo2 v).len = s.len := rfl
@[simp] theorem State.setCo2_cmd (s : State) (v : Word16) : (s.setCo2 v).cmd = s.cmd := rfl
@[simp] theorem State.setCo2_done (s : State) (v : Word16) : (s.setCo2 v).done = s.done := rfl
@[simp] theorem State.setCo2_valid (s : State) (v : Word16) : (s.setCo2 v).valid = s.valid := rfl
@[simp] theorem State.setCo2_matched (s : State) (v : Word16) : (s.setCo2 v).matched = s.matched := rfl
@[simp] theorem State.setCo2_err (s : State) (v : Word16) : (s.setCo2 v).err = s.err := rfl
@[simp] theorem State.setCo2_seq (s : State) (v : Word16) : (s.setCo2 v).seq = s.seq := rfl
@[simp] theorem State.setCo2_buf (s : State) (v : Word16) : (s.setCo2 v).buf = s.buf := rfl
@[simp] theorem State.setCo2_bufMax (s : State) (v : Word16) : (s.setCo2 v).bufMax = s.bufMax := rfl
@[simp] theorem State.setCo2_script (s : State) (v : Word16) : (s.setCo2 v).script = s.script := rfl
@[simp] theorem State.setCo2_request (s : State) (v : Word16) : (s.setCo2 v).request = s.request := rfl
@[simp] theorem State.setCo2_rdata (s : State) (v : Word16) : (s.setCo2 v).rdata = s.rdata := rfl

@[simp] theorem State.setStatus_raw (s : State) (v : Byte) : (s.setStatus v).raw = s.raw := rfl
@[simp] theorem State.setStatus_tnum (s : State) (v : Byte) : (s.setStatus v).tnum = s.tnum := rfl
@[simp] theorem State.setStatus_rhnum (s : State) (v : Byte) : (s.setStatus v).rhnum = s.rhnum := rfl
@[simp] theorem State.setStatus_co2 (s : State) (v : Byte) : (s.setStatus v).co2 = s.co2 := rfl
@[simp] theorem State.setStatus_status (s : State) (v : Byte) : (s.setStatus v).status = v := rfl
@[simp] theorem State.setStatus_rem (s : State) (v : Byte) : (s.setStatus v).rem = s.rem := rfl
@[simp] theorem State.setStatus_crc16 (s : State) (v : Byte) : (s.setStatus v).crc16 = s.crc16 := rfl
@[simp] theorem State.setStatus_len (s : State) (v : Byte) : (s.setStatus v).len = s.len := rfl
@[simp] theorem State.setStatus_cmd (s : State) (v : Byte) : (s.setStatus v).cmd = s.cmd := rfl
@[simp] theorem State.setStatus_done (s : State) (v : Byte) : (s.setStatus v).done = s.done := rfl
@[simp] theorem State.setStatus_valid (s : State) (v : Byte) : (s.setStatus v).valid = s.valid := rfl
@[simp] theorem State.setStatus_matched (s : State) (v : Byte) : (s.setStatus v).matched = s.matched := rfl
@[simp] theorem State.setStatus_err (s : State) (v : Byte) : (s.setStatus v).err = s.err := rfl
@[simp] theorem State.setStatus_seq (s : State) (v : Byte) : (s.setStatus v).seq = s.seq := rfl
@[simp] theorem State.setStatus_buf (s : State) (v : Byte) : (s.setStatus v).buf = s.buf := rfl
@[simp] theorem State.setStatus_bufMax (s : State) (v : Byte) : (s.setStatus v).bufMax = s.bufMax := rfl
@[simp] theorem State.setStatus_script (s : State) (v : Byte) : (s.setStatus v).script = s.script := rfl
@[simp] theorem State.setStatus_request (s : State) (v : Byte) : (s.setStatus v).request = s.request := rfl
@[simp] theorem State.setStatus_rdata (s : State) (v : Byte) : (s.setStatus v).rdata = s.rdata := rfl

@[simp] theorem State.setLen_raw (s : State) (v : Byte) : (s.setLen v).raw = s.raw := rfl
@[simp] theorem State.setLen_tnum (s : State) (v : Byte) : (s.setLen v).tnum = s.tnum := rfl
@[simp] theorem State.setLen_rhnum (s : State) (v : Byte) : (s.setLen v).rhnum = s.rhnum := rfl
@[simp] theorem State.setLen_co2 (s : State) (v : Byte) : (s.setLen v).co2 = s.co2 := rfl
@[simp] theorem State.setLen_status (s : State) (v : Byte) : (s.setLen v).status = s.status := rfl
@[simp] theorem State.setLen_rem (s : State) (v : Byte) : (s.setLen v).rem = s.rem := rfl
@[simp] theorem State.setLen_crc16 (s : State) (v : Byte) : (s.setLen v).crc16 = s.crc16 := rfl
@[simp] theorem State.setLen_len (s : State) (v : Byte) : (s.setLen v).len = v := rfl
@[simp] theorem State.setLen_cmd (s : State) (v : Byte) : (s.setLen v).cmd = s.cmd := rfl
@[simp] theorem State.setLen_done (s : State) (v : Byte) : (s.setLen v).done = s.done := rfl
@[simp] theorem State.setLen_valid (s : State) (v : Byte) : (s.setLen v).valid = s.valid := rfl
@[simp] theorem State.setLen_matched (s : State) (v : Byte) : (s.setLen v).matched = s.matched := rfl
@[simp] theorem State.setLen_err (s : State) (v : Byte) : (s.setLen v).err = s.err := rfl
@[simp] theorem State.setLen_seq (s : State) (v : Byte) : (s.setLen v).seq = s.seq := rfl
@[simp] theorem State.setLen_buf (s : State) (v : Byte) : (s.setLen v).buf = s.buf := rfl
@[simp] theorem State.setLen_bufMax (s : State) (v : Byte) : (s.setLen v).bufMax = s.bufMax := rfl
@[simp] theorem State.setLen_script (s : State) (v : Byte) : (s.setLen v).script = s.script := rfl
@[simp] theorem State.setLen_request (s : State) (v : Byte) : (s.setLen v).request = s.request := rfl
@[simp] theorem State.setLen_rdata (s : State) (v : Byte) : (s.setLen v).rdata = s.rdata := rfl

@[simp] theorem State.setRem_raw (s : State) (q : Word24) : (s.setRem q).raw = s.raw := rfl
@[simp] theorem State.setRem_tnum (s : State) (q : Word24) : (s.setRem q).tnum = s.tnum := rfl
@[simp] theorem State.setRem_rhnum (s : State) (q : Word24) : (s.setRem q).rhnum = s.rhnum := rfl
@[simp] theorem State.setRem_co2 (s : State) (q : Word24) : (s.setRem q).co2 = s.co2 := rfl
@[simp] theorem State.setRem_status (s : State) (q : Word24) : (s.setRem q).status = s.status := rfl
@[simp] theorem State.setRem_rem (s : State) (q : Word24) : (s.setRem q).rem = q := rfl
@[simp] theorem State.setRem_crc16 (s : State) (q : Word24) : (s.setRem q).crc16 = s.crc16 := rfl
@[simp] theorem State.setRem_len (s : State) (q : Word24) : (s.setRem q).len = s.len := rfl
@[simp] theorem State.setRem_cmd (s : State) (q : Word24) : (s.setRem q).cmd = s.cmd := rfl
@[simp] theorem State.setRem_done (s : State) (q : Word24) : (s.setRem q).done = s.done := rfl
@[simp] theorem State.setRem_valid (s : State) (q : Word24) : (s.setRem q).valid = (q == 0#24) := rfl
@[simp] theorem State.setRem_matched (s : State) (q : Word24) : (s.setRem q).matched = s.matched := rfl
@[simp] theorem State.setRem_err (s : State) (q : Word24) : (s.setRem q).err = s.err := rfl
@[simp] theorem State.setRem_seq (s : State) (q : Word24) : (s.setRem q).seq = s.seq := rfl
@[simp] theorem State.setRem_buf (s : State) (q : Word24) : (s.setRem q).buf = s.buf := rfl
@[simp] theorem State.setRem_bufMax (s : State) (q : Word24) : (s.setRem q).bufMax = s.bufMax := rfl
@[simp] theorem State.setRem_script (s : State) (q : Word24) : (s.setRem q).script = s.script := rfl
@[simp] theorem State.setRem_request (s : State) (q : Word24) : (s.setRem q).request = s.request := rfl
@[simp] theorem State.setRem_rdata (s : State) (q : Word24) : (s.setRem q).rdata = s.rdata := rfl

@[simp] theorem State.setCrc16_raw (s : State) (c : Word16) : (s.setCrc16 c).raw = s.raw := rfl
@[simp] theorem State.setCrc16_tnum (s : State) (c : Word16) : (s.setCrc16 c).tnum = s.tnum := rfl
@[simp] theorem State.setCrc16_rhnum (s : State) (c : Word16) : (s.setCrc16 c).rhnum = s.rhnum := rfl
@[simp] theorem State.setCrc16_co2 (s : State) (c : Word16) : (s.setCrc16 c).co2 = s.co2 := rfl
@[simp] theorem State.setCrc16_status (s : State) (c : Word16) : (s.setCrc16 c).status = s.status := rfl
@[simp] theorem State.setCrc16_rem (s : State) (c : Word16) : (s.setCrc16 c).rem = s.rem := rfl
@[simp] theorem State.setCrc16_crc16 (s : State) (c : Word16) : (s.setCrc16 c).crc16 = c := rfl
@[simp] theorem State.setCrc16_len (s : State) (c : Word16) : (s.setCrc16 c).len = s.len := rfl
@[simp] theorem State.setCrc16_cmd (s : State) (c : Word16) : (s.setCrc16 c).cmd = s.cmd := rfl
@[simp] theorem State.setCrc16_done (s : State) (c : Word16) : (s.setCrc16 c).done = s.done := rfl
@[simp] theorem State.setCrc16_valid (s : State) (c : Word16) : (s.setCrc16 c).valid = s.valid := rfl
@[simp] theorem State.setCrc16_matched (s : State) (c : Word16) : (s.setCrc16 c).matched = s.matched := rfl
@[simp] theorem State.setCrc16_err (s : State) (c : Word16) : (s.setCrc16 c).err = s.err := rfl
@[simp] theorem State.setCrc16_seq (s : State) (c : Word16) : (s.setCrc16 c).seq = s.seq := rfl
@[simp] theorem State.setCrc16_buf (s : State) (c : Word16) : (s.setCrc16 c).buf = s.buf := rfl
@[simp] theorem State.setCrc16_bufMax (s : State) (c : Word16) : (s.setCrc16 c).bufMax = s.bufMax := rfl
@[simp] theorem State.setCrc16_script (s : State) (c : Word16) : (s.setCrc16 c).script = s.script := rfl
@[simp] theorem State.setCrc16_request (s : State) (c : Word16) : (s.setCrc16 c).request = s.request := rfl
@[simp] theorem State.setCrc16_rdata (s : State) (c : Word16) : (s.setCrc16 c).rdata = s.rdata := rfl

@[simp] theorem State.setMatched_raw (s : State) (m : Bool) : (s.setMatched m).raw = s.raw := rfl
@[simp] theorem State.setMatched_tnum (s : State) (m : Bool) : (s.setMatched m).tnum = s.tnum := rfl
@[simp] theorem State.setMatched_rhnum (s : State) (m : Bool) : (s.setMatched m).rhnum = s.rhnum := rfl
@[simp] theorem State.setMatched_co2 (s : State) (m : Bool) : (s.setMatched m).co2 = s.co2 := rfl
@[simp] theorem State.setMatched_status (s : State) (m : Bool) : (s.setMatched m).status = s.status := rfl
@[simp] theorem State.setMatched_rem (s : State) (m : Bool) : (s.setMatched m).rem = s.rem := rfl
@[simp] theorem State.setMatched_crc16 (s : State) (m : Bool) : (s.setMatched m).crc16 = s.crc16 := rfl
@[simp] theorem State.setMatched_len (s : State) (m : Bool) : (s.setMatched m).len = s.len := rfl
@[simp] theorem State.setMatched_cmd (s : State) (m : Bool) : (s.setMatched m).cmd = s.cmd := rfl
@[simp] theorem State.setMatched_done (s : State) (m : Bool) : (s.setMatched m).done = s.done := rfl
@[simp] theorem State.setMatched_valid (s : State) (m : Bool) : (s.setMatched m).valid = s.valid := rfl
@[simp] theorem State.setMatched_matched (s : State) (m : Bool) : (s.setMatched m).matched = m := rfl
@[simp] theorem State.setMatched_err (s : State) (m : Bool) : (s.setMatched m).err = s.err := rfl
@[simp] theorem State.setMatched_seq (s : State) (m : Bool) : (s.setMatched m).seq = s.seq := rfl
@[simp] theorem State.setMatched_buf (s : State) (m : Bool) : (s.setMatched m).buf = s.buf := rfl
@[simp] theorem State.setMatched_bufMax (s : State) (m : Bool) : (s.setMatched m).bufMax = s.bufMax := rfl
@[simp] theorem State.setMatched_script (s : State) (m : Bool) : (s.setMatched m).script = s.script := rfl
@[simp] theorem State.setMatched_request (s : State) (m : Bool) : (s.setMatched m).request = s.request := rfl
@[simp] theorem State.setMatched_rdata (s : State) (m : Bool) : (s.setMatched m).rdata = s.rdata := rfl

@[simp] theorem State.setBufByte_raw (s : State) (i : Nat) (b : Byte) : (s.setBufByte i b).raw = s.raw := rfl
@[simp] theorem State.setBufByte_tnum (s : State) (i : Nat) (b : Byte) : (s.setBufByte i b).tnum = s.tnum := rfl
@[simp] theorem State.setBufByte_rhnum (s : State) (i : Nat) (b : Byte) : (s.setBufByte i b).rhnum = s.rhnum := rfl
@[simp] theorem State.setBufByte_co2 (s : State) (i : Nat) (b : Byte) : (s.setBufByte i b).co2 = s.co2 := rfl
@[simp] theorem State.setBufByte_status (s : State) (i : Nat) (b : Byte) : (s.setBufByte i b).status = s.status := rfl
@[simp] theorem State.setBufByte_rem (s : State) (i : Nat) (b : Byte) : (s.setBufByte i b).rem = s.rem := rfl
@[simp] theorem State.setBufByte_crc16 (s : State) (i : Nat) (b : Byte) : (s.setBufByte i b).crc16 = s.crc16 := rfl
@[simp] theorem State.setBufByte_len (s : State) (i : Nat) (b : Byte) : (s.setBufByte i b).len = s.len := rfl
@[simp] theorem State.setBufByte_cmd (s : State) (i : Nat) (b : Byte) : (s.setBufByte i b).cmd = s.cmd := rfl
@[simp] theorem State.setBufByte_done (s : State) (i : Nat) (b : Byte) : (s.setBufByte i b).done = s.done := rfl
@[simp] theorem State.setBufByte_valid (s : State) (i : Nat) (b : Byte) : (s.setBufByte i b).valid = s.valid := rfl
@[simp] theorem State.setBufByte_matched (s : State) (i : Nat) (b : Byte) : (s.setBufByte i b).matched = s.matched := rfl
@[simp] theorem State.setBufByte_err (s : State) (i : Nat) (b : Byte) : (s.setBufByte i b).err = s.err := rfl
@[simp] theorem State.setBufByte_seq (s : State) (i : Nat) (b : Byte) : (s.setBufByte i b).seq = s.seq := rfl
@[simp] theorem State.setBufByte_buf (s : State) (i : Nat) (b : Byte) : (s.setBufByte i b).buf = Memory.write s.buf i b := rfl
@[simp] theorem State.setBufByte_bufMax (s : State) (i : Nat) (b : Byte) : (s.setBufByte i b).bufMax = s.bufMax := rfl
@[simp] theorem State.setBufByte_script (s : State) (i : Nat) (b : Byte) : (s.setBufByte i b).script = s.script := rfl
@[simp] theorem State.setBufByte_request (s : State) (i : Nat) (b : Byte) : (s.setBufByte i b).request = s.request := rfl
@[simp] theorem State.setBufByte_rdata (s : State) (i : Nat) (b : Byte) : (s.setBufByte i b).rdata = s.rdata := rfl

@[simp] theorem State.memWrite_raw (s : State) (i : Nat) (bs : List Byte) : (s.memWrite i bs).raw = s.raw := rfl
@[simp] theorem State.memWrite_tnum (s : State) (i : Nat) (bs : List Byte) : (s.memWrite i bs).tnum = s.tnum := rfl
@[simp] theorem State.memWrite_rhnum (s : State) (i : Nat) (bs : List Byte) : (s.memWrite i bs).rhnum = s.rhnum := rfl
@[simp] theorem State.memWrite_co2 (s : State) (i : Nat) (bs : List Byte) : (s.memWrite i bs).co2 = s.co2 := rfl
@[simp] theorem State.memWrite_status (s : State) (i : Nat) (bs : List Byte) : (s.memWrite i bs).status = s.status := rfl
@[simp] theorem State.memWrite_rem (s : State) (i : Nat) (bs : List Byte) : (s.memWrite i bs).rem = s.rem := rfl
@[simp] theorem State.memWrite_crc16 (s : State) (i : Nat) (bs : List Byte) : (s.memWrite i bs).crc16 = s.crc16 := rfl
@[simp] theorem State.memWrite_len (s : State) (i : Nat) (bs : List Byte) : (s.memWrite i bs).len = s.len := rfl
@[simp] theorem State.memWrite_cmd (s : State) (i : Nat) (bs : List Byte) : (s.memWrite i bs).cmd = s.cmd := rfl
@[simp] theorem State.memWrite_done (s : State) (i : Nat) (bs : List Byte) : (s.memWrite i bs).done = s.done := rfl
@[simp] theorem State.memWrite_valid (s : State) (i : Nat) (bs : List Byte) : (s.memWrite i bs).valid = s.valid := rfl
@[simp] theorem State.memWrite_matched (s : State) (i : Nat) (bs : List Byte) : (s.memWrite i bs).matched = s.matched := rfl
@[simp] theorem State.memWrite_err (s : State) (i : Nat) (bs : List Byte) : (s.memWrite i bs).err = s.err := rfl
@[simp] theorem State.memWrite_seq (s : State) (i : Nat) (bs : List Byte) : (s.memWrite i bs).seq = s.seq := rfl
@[simp] theorem State.memWrite_buf (s : State) (i : Nat) (bs : List Byte) : (s.memWrite i bs).buf = Memory.writeList s.buf i bs := rfl
@[simp] theorem State.memWrite_bufMax (s : State) (i : Nat) (bs : List Byte) : (s.memWrite i bs).bufMax = s.bufMax := rfl
@[simp] theorem State.memWrite_script (s : State) (i : Nat) (bs : List Byte) : (s.memWrite i bs).script = s.script := rfl
@[simp] theorem State.memWrite_request (s : State) (i : Nat) (bs : List Byte) : (s.memWrite i bs).request = s.request := rfl
@[simp] theorem State.memWrite_rdata (s : State) (i : Nat) (bs : List Byte) : (s.memWrite i bs).rdata = s.rdata := rfl

@[simp] theorem State.goOn_raw (s : State) (q : SeqState) (r : Request) : (s.goOn q r).raw = s.raw := rfl
@[simp] theorem State.goOn_tnum (s : State) (q : SeqState) (r : Request) : (s.goOn q r).tnum = s.tnum := rfl
@[simp] theorem State.goOn_rhnum (s : State) (q : SeqState) (r : Request) : (s.goOn q r).rhnum = s.rhnum := rfl
@[simp] theorem State.goOn_co2 (s : State) (q : SeqState) (r : Request) : (s.goOn q r).co2 = s.co2 := rfl
@[simp] theorem State.goOn_status (s : State) (q : SeqState) (r : Request) : (s.goOn q r).status = s.status := rfl
@[simp] theorem State.goOn_rem (s : State) (q : SeqState) (r : Request) : (s.goOn q r).rem = s.rem := rfl
@[simp] theorem State.goOn_crc16 (s : State) (q : SeqState) (r : Request) : (s.goOn q r).crc16 = s.crc16 := rfl
@[simp] theorem State.goOn_len (s : State) (q : SeqState) (r : Request) : (s.goOn q r).len = s.len := rfl
@[simp] theorem State.goOn_cmd (s : State) (q : SeqState) (r : Request) : (s.goOn q r).cmd = s.cmd := rfl
@[simp] theorem State.goOn_done (s : State) (q : SeqState) (r : Request) : (s.goOn q r).done = s.done := rfl
@[simp] theorem State.goOn_valid (s : State) (q : SeqState) (r : Request) : (s.goOn q r).valid = s.valid := rfl
@[simp] theorem State.goOn_matched (s : State) (q : SeqState) (r : Request) : (s.goOn q r).matched = s.matched := rfl
@[simp] theorem State.goOn_err (s : State) (q : SeqState) (r : Request) : (s.goOn q r).err = s.err := rfl
@[simp] theorem State.goOn_seq (s : State) (q : SeqState) (r : Request) : (s.goOn q r).seq = q := rfl
@[simp] theorem State.goOn_buf (s : State) (q : SeqState) (r : Request) : (s.goOn q r).buf = s.buf := rfl
@[simp] theorem State.goOn_bufMax (s : State) (q : SeqState) (r : Request) : (s.goOn q r).bufMax = s.bufMax := rfl
@[simp] theorem State.goOn_script (s : State) (q : SeqState) (r : Request) : (s.goOn q r).script = s.script := rfl
@[simp] theorem State.goOn_request (s : State) (q : SeqState) (r : Request) : (s.goOn q r).request = some r := rfl
@[simp] theorem State.goOn_rdata (s : State) (q : SeqState) (r : Request) : (s.goOn q r).rdata = s.rdata := rfl

@[simp] theorem State.raise_raw (s : State) (k : ErrKind) : (s.raise k).raw = s.raw := rfl
@[simp] theorem State.raise_tnum (s : State) (k : ErrKind) : (s.raise k).tnum = s.tnum := rfl
@[simp] theorem State.raise_rhnum (s : State) (k : ErrKind) : (s.raise k).rhnum = s.rhnum := rfl
@[simp] theorem State.raise_co2 (s : State) (k : ErrKind) : (s.raise k).co2 = s.co2 := rfl
@[simp] theorem State.raise_status (s : State) (k : ErrKind) : (s.raise k).status = s.status := rfl
@[simp] theorem State.raise_rem (s : State) (k : ErrKind) : (s.raise k).rem = s.rem := rfl
@[simp] theorem State.raise_crc16 (s : State) (k : ErrKind) : (s.raise k).crc16 = s.crc16 := rfl
@[simp] theorem State.raise_len (s : State) (k : ErrKind) : (s.raise k).len = s.len := rfl
@[simp] theorem State.raise_cmd (s : State) (k : ErrKind) : (s.raise k).cmd = s.cmd := rfl
@[simp] theorem State.raise_done (s : State) (k : ErrKind) : (s.raise k).done = true := rfl
@[simp] theorem State.raise_valid (s : State) (k : ErrKind) : (s.raise k).valid = s.valid := rfl
@[simp] theorem State.raise_matched (s : State) (k : ErrKind) : (s.raise k).matched = s.matched := rfl
@[simp] theorem State.raise_err (s : State) (k : ErrKind) : (s.raise k).err = k := rfl
@[simp] theorem State.raise_seq (s : State) (k : ErrKind) : (s.raise k).seq = .idle := rfl
@[simp] theorem State.raise_buf (s : State) (k : ErrKind) : (s.raise k).buf = s.buf := rfl
@[simp] theorem State.raise_bufMax (s : State) (k : ErrKind) : (s.raise k).bufMax = s.bufMax := rfl
@[simp] theorem State.raise_script (s : State) (k : ErrKind) : (s.raise k).script = s.script := rfl
@[simp] theorem State.raise_request (s : State) (k : ErrKind) : (s.raise k).request = s.request := rfl
@[simp] theorem State.raise_rdata (s : State) (k : ErrKind) : (s.raise k).rdata = s.rdata := rfl

@[simp] theorem State.finish_raw (s : State) : (s.finish).raw = s.raw := rfl
@[simp] theorem State.finish_tnum (s : State) : (s.finish).tnum = s.tnum := rfl
@[simp] theorem State.finish_rhnum (s : State) : (s.finish).rhnum = s.rhnum := rfl
@[simp] theorem State.finish_co2 (s : State) : (s.finish).co2 = s.co2 := rfl
@[simp] theorem State.finish_status (s : State) : (s.finish).status = s.status := rfl
@[simp] theorem State.finish_rem (s : State) : (s.finish).rem = s.rem := rfl
@[simp] theorem State.finish_crc16 (s : State) : (s.finish).crc16 = s.crc16 := rfl
@[simp] theorem State.finish_len (s : State) : (s.finish).len = s.len := rfl
@[simp] theorem State.finish_cmd (s : State) : (s.finish).cmd = s.cmd := rfl
@[simp] theorem State.finish_done (s : State) : (s.finish).done = true := rfl
@[simp] theorem State.finish_valid (s : State) : (s.finish).valid = s.valid := rfl
@[simp] theorem State.finish_matched (s : State) : (s.finish).matched = s.matched := rfl
@[simp] theorem State.finish_err (s : State) : (s.finish).err = s.err := rfl
@[simp] theorem State.finish_seq (s : State) : (s.finish).seq = .idle := rfl
@[simp] theorem State.finish_buf (s : State) : (s.finish).buf = s.buf := rfl
@[simp] theorem State.finish_bufMax (s : State) : (s.finish).bufMax = s.bufMax := rfl
@[simp] theorem State.finish_script (s : State) : (s.finish).script = s.script := rfl
@[simp] theorem State.finish_request (s : State) : (s.finish).request = s.request := rfl
@[simp] theorem State.finish_rdata (s : State) : (s.finish).rdata = s.rdata := rfl

@[simp] theorem State.accept_raw (s : State) (w : Word16) (q : SeqState) (r : Option Request) : (s.accept w q r).raw = s.raw := rfl
@[simp] theorem State.accept_tnum (s : State) (w : Word16) (q : SeqState) (r : Option Request) : (s.accept w q r).tnum = s.tnum := rfl
@[simp] theorem State.accept_rhnum (s : State) (w : Word16) (q : SeqState) (r : Option Request) : (s.accept w q r).rhnum = s.rhnum := rfl
@[simp] theorem State.accept_co2 (s : State) (w : Word16) (q : SeqState) (r : Option Request) : (s.accept w q r).co2 = s.co2 := rfl
@[simp] theorem State.accept_status (s : State) (w : Word16) (q : SeqState) (r : Option Request) : (s.accept w q r).status = s.status := rfl
@[simp] theorem State.accept_rem (s : State) (w : Word16) (q : SeqState) (r : Option Request) : (s.accept w q r).rem = s.rem := rfl
@[simp] theorem State.accept_crc16 (s : State) (w : Word16) (q : SeqState) (r : Option Request) : (s.accept w q r).crc16 = s.crc16 := rfl
@[simp] theorem State.accept_len (s : State) (w : Word16) (q : SeqState) (r : Option Request) : (s.accept w q r).len = s.len := rfl
@[simp] theorem State.accept_cmd (s : State) (w : Word16) (q : SeqState) (r : Option Request) : (s.accept w q r).cmd = w := rfl
@[simp] theorem State.accept_done (s : State) (w : Word16) (q : SeqState) (r : Option Request) : (s.accept w q r).done = false := rfl
@[simp] theorem State.accept_valid (s : State) (w : Word16) (q : SeqState) (r : Option Request) : (s.accept w q r).valid = s.valid := rfl
@[simp] theorem State.accept_matched (s : State) (w : Word16) (q : SeqState) (r : Option Request) : (s.accept w q r).matched = s.matched := rfl
@[simp] theorem State.accept_err (s : State) (w : Word16) (q : SeqState) (r : Option Request) : (s.accept w q r).err = .none := rfl
@[simp] theorem State.accept_seq (s : State) (w : Word16) (q : SeqState) (r : Option Request) : (s.accept w q r).seq = q := rfl
@[simp] theorem State.accept_buf (s : State) (w : Word16) (q : SeqState) (r : Option Request) : (s.accept w q r).buf = s.buf := rfl
@[simp] theorem State.accept_bufMax (s : State) (w : Word16) (q : SeqState) (r : Option Request) : (s.accept w q r).bufMax = s.bufMax := rfl
@[simp] theorem State.accept_script (s : State) (w : Word16) (q : SeqState) (r : Option Request) : (s.accept w q r).script = s.script.tail := rfl
@[simp] theorem State.accept_request (s : State) (w : Word16) (q : SeqState) (r : Option Request) : (s.accept w q r).request = r := rfl
@[simp] theorem State.accept_rdata (s : State) (w : Word16) (q : SeqState) (r : Option Request) : (s.accept w q r).rdata = none := rfl

@[simp] theorem State.illegal_raw (s : State) (w : Word16) : (s.illegal w).raw = s.raw := rfl
@[simp] theorem State.illegal_tnum (s : State) (w : Word16) : (s.illegal w).tnum = s.tnum := rfl
@[simp] theorem State.illegal_rhnum (s : State) (w : Word16) : (s.illegal w).rhnum = s.rhnum := rfl
@[simp] theorem State.illegal_co2 (s : State) (w : Word16) : (s.illegal w).co2 = s.co2 := rfl
@[simp] theorem State.illegal_status (s : State) (w : Word16) : (s.illegal w).status = s.status := rfl
@[simp] theorem State.illegal_rem (s : State) (w : Word16) : (s.illegal w).rem = s.rem := rfl
@[simp] theorem State.illegal_crc16 (s : State) (w : Word16) : (s.illegal w).crc16 = s.crc16 := rfl
@[simp] theorem State.illegal_len (s : State) (w : Word16) : (s.illegal w).len = s.len := rfl
@[simp] theorem State.illegal_cmd (s : State) (w : Word16) : (s.illegal w).cmd = w := rfl
@[simp] theorem State.illegal_done (s : State) (w : Word16) : (s.illegal w).done = true := rfl
@[simp] theorem State.illegal_valid (s : State) (w : Word16) : (s.illegal w).valid = s.valid := rfl
@[simp] theorem State.illegal_matched (s : State) (w : Word16) : (s.illegal w).matched = s.matched := rfl
@[simp] theorem State.illegal_err (s : State) (w : Word16) : (s.illegal w).err = .illegalCommand := rfl
@[simp] theorem State.illegal_seq (s : State) (w : Word16) : (s.illegal w).seq = s.seq := rfl
@[simp] theorem State.illegal_buf (s : State) (w : Word16) : (s.illegal w).buf = s.buf := rfl
@[simp] theorem State.illegal_bufMax (s : State) (w : Word16) : (s.illegal w).bufMax = s.bufMax := rfl
@[simp] theorem State.illegal_script (s : State) (w : Word16) : (s.illegal w).script = s.script.tail := rfl
@[simp] theorem State.illegal_request (s : State) (w : Word16) : (s.illegal w).request = none := rfl
@[simp] theorem State.illegal_rdata (s : State) (w : Word16) : (s.illegal w).rdata = none := rfl

@[simp] theorem State.arch_raw (s : State) : (s.arch).raw = s.raw := rfl
@[simp] theorem State.arch_tnum (s : State) : (s.arch).tnum = s.tnum := rfl
@[simp] theorem State.arch_rhnum (s : State) : (s.arch).rhnum = s.rhnum := rfl
@[simp] theorem State.arch_co2 (s : State) : (s.arch).co2 = s.co2 := rfl
@[simp] theorem State.arch_status (s : State) : (s.arch).status = s.status := rfl
@[simp] theorem State.arch_rem (s : State) : (s.arch).rem = s.rem := rfl
@[simp] theorem State.arch_crc16 (s : State) : (s.arch).crc16 = s.crc16 := rfl
@[simp] theorem State.arch_len (s : State) : (s.arch).len = s.len := rfl
@[simp] theorem State.arch_cmd (s : State) : (s.arch).cmd = s.cmd := rfl
@[simp] theorem State.arch_done (s : State) : (s.arch).done = s.done := rfl
@[simp] theorem State.arch_valid (s : State) : (s.arch).valid = s.valid := rfl
@[simp] theorem State.arch_matched (s : State) : (s.arch).matched = s.matched := rfl
@[simp] theorem State.arch_err (s : State) : (s.arch).err = s.err := rfl
@[simp] theorem State.arch_seq (s : State) : (s.arch).seq = s.seq := rfl
@[simp] theorem State.arch_buf (s : State) : (s.arch).buf = s.buf := rfl
@[simp] theorem State.arch_bufMax (s : State) : (s.arch).bufMax = s.bufMax := rfl
@[simp] theorem State.arch_script (s : State) : (s.arch).script = [] := rfl
@[simp] theorem State.arch_request (s : State) : (s.arch).request = none := rfl
@[simp] theorem State.arch_rdata (s : State) : (s.arch).rdata = none := rfl

end Sys2Proof.Machine
end

