-- ==== Sys2Proof/Laws/Memory.lean ====
section
/-! SUPPORT. The laws of BUF: read after write, and that every memory operation keeps the canonical form and the bound. -/

namespace Sys2Proof.Machine

/-- An index below every listed one reads as unlisted. -/
theorem Memory.read_below {m : Memory} {a : Nat} (h : ∀ c ∈ m, a < c.1) : Memory.read m a = Memory.unlisted := by
  induction m with
  | nil => rfl
  | cons c rest ih =>
    obtain ⟨k, v⟩ := c
    have hk : a < k := h (k, v) (by simp)
    simp [Memory.read, Nat.ne_of_gt hk, ih fun c hc => h c (by simp [hc])]

theorem Memory.wf_tail {c : Host.Cell} {m : Memory} (h : Memory.wf (c :: m)) : Memory.wf m :=
  ⟨(List.pairwise_cons.1 h.1).2, fun d hd => h.2 d (by simp [hd])⟩

theorem Memory.wf_head_lt {c d : Host.Cell} {m : Memory} (h : Memory.wf (c :: m)) (hd : d ∈ m) : c.1 < d.1 :=
  (List.pairwise_cons.1 h.1).1 d hd

theorem Memory.wf_cons {c : Host.Cell} {m : Memory} (hm : Memory.wf m) (hlt : ∀ d ∈ m, c.1 < d.1)
    (hv : c.2 ≠ Memory.unlisted) : Memory.wf (c :: m) :=
  ⟨List.pairwise_cons.2 ⟨hlt, hm.1⟩, fun d hd => by
    rcases List.mem_cons.1 hd with rfl | hd
    · exact hv
    · exact hm.2 d hd⟩

/-- The cells of a written memory: the written one, or an old one. -/
theorem Memory.mem_write {m : Memory} {a : Nat} {b : Byte} {c : Host.Cell} (h : c ∈ Memory.write m a b) :
    c = (a, b) ∨ c ∈ m := by
  induction m with
  | nil => simp only [Memory.write] at h; split at h <;> simp_all
  | cons d rest ih =>
    obtain ⟨k, v⟩ := d
    simp only [Memory.write] at h
    split at h
    · split at h <;> simp_all
    · split at h
      · split at h <;> simp_all
        rcases h with h | h <;> simp [h]
      · rcases List.mem_cons.1 h with h | h
        · simp [h]
        · rcases ih h with h | h <;> simp [h]

/-- A write keeps the canonical form. -/
theorem Memory.wf_write {m : Memory} (h : Memory.wf m) (a : Nat) (b : Byte) : Memory.wf (Memory.write m a b) := by
  induction m with
  | nil =>
    simp only [Memory.write]
    split
    · exact h
    · exact Memory.wf_cons h (by simp) ‹_›
  | cons d rest ih =>
    obtain ⟨k, v⟩ := d
    have hr := Memory.wf_tail h
    simp only [Memory.write]
    split
    · next hak =>
      split
      · exact h
      · refine Memory.wf_cons h (fun d hd => ?_) ‹_›
        rcases List.mem_cons.1 hd with rfl | hd
        · exact hak
        · exact Nat.lt_trans hak (Memory.wf_head_lt h hd)
    · split
      · next hak =>
        split
        · exact hr
        · refine Memory.wf_cons hr (fun d hd => ?_) ‹_›
          have hlt := Memory.wf_head_lt h hd
          simpa [hak] using hlt
      · refine Memory.wf_cons (ih hr) (fun d hd => ?_) (h.2 (k, v) (by simp))
        rcases Memory.mem_write hd with rfl | hd
        · show k < a
          omega
        · exact Memory.wf_head_lt h hd

/-- Read after write at the same index. -/
theorem Memory.read_write_same {m : Memory} (h : Memory.wf m) (a : Nat) (b : Byte) :
    Memory.read (Memory.write m a b) a = b := by
  induction m with
  | nil => simp only [Memory.write]; split <;> simp_all [Memory.read]
  | cons d rest ih =>
    obtain ⟨k, v⟩ := d
    simp only [Memory.write]
    split
    · next hak =>
      split
      · next hb =>
        rw [hb]
        refine Memory.read_below fun c hc => ?_
        rcases List.mem_cons.1 hc with rfl | hc
        · exact hak
        · exact Nat.lt_trans hak (Memory.wf_head_lt h hc)
      · simp [Memory.read]
    · split
      · next hak =>
        split
        · next hb =>
          rw [hb]
          exact Memory.read_below fun c hc => hak ▸ Memory.wf_head_lt h hc
        · simp [Memory.read]
      · next hne =>
        simp [Memory.read, Ne.symm hne, ih (Memory.wf_tail h)]

/-- A write leaves every other byte alone. -/
theorem Memory.read_write_other (m : Memory) {a a' : Nat} (hne : a' ≠ a) (b : Byte) :
    Memory.read (Memory.write m a b) a' = Memory.read m a' := by
  induction m with
  | nil => simp only [Memory.write]; split <;> simp [Memory.read, Ne.symm hne]
  | cons d rest ih =>
    obtain ⟨k, v⟩ := d
    simp only [Memory.write]
    split
    · split
      · rfl
      · simp [Memory.read, Ne.symm hne]
    · split
      · next hak =>
        subst hak
        split <;> simp [Memory.read, Ne.symm hne]
      · simp [Memory.read, ih]

theorem Memory.wf_writeList {m : Memory} (h : Memory.wf m) (addr : Nat) (bytes : List Byte) :
    Memory.wf (Memory.writeList m addr bytes) := by
  induction bytes generalizing m addr with
  | nil => exact h
  | cons b bs ih => exact ih (Memory.wf_write h addr b) (addr + 1)

theorem Memory.mem_writeList {m : Memory} {addr : Nat} {bytes : List Byte} {c : Host.Cell}
    (h : c ∈ Memory.writeList m addr bytes) : c ∈ m ∨ c.1 < addr + bytes.length := by
  induction bytes generalizing m addr with
  | nil => exact .inl h
  | cons b bs ih =>
    rcases ih h with h | h
    · rcases Memory.mem_write h with rfl | h
      · right; simp
      · exact .inl h
    · right; simp only [List.length_cons]; omega

/-- Below and above a written run every byte is unchanged. -/
theorem Memory.read_writeList_outside (m : Memory) (addr : Nat) (bytes : List Byte) {a : Nat}
    (h : a < addr ∨ addr + bytes.length ≤ a) :
    Memory.read (Memory.writeList m addr bytes) a = Memory.read m a := by
  induction bytes generalizing m addr with
  | nil => rfl
  | cons b bs ih =>
    simp only [List.length_cons] at h
    rw [Memory.writeList, ih _ _ (by omega), Memory.read_write_other _ (by omega)]

/-- Inside a written run the bytes are those written. -/
theorem Memory.read_writeList_inside {m : Memory} (hm : Memory.wf m) (addr : Nat) (bytes : List Byte) {j : Nat}
    (h : j < bytes.length) : Memory.read (Memory.writeList m addr bytes) (addr + j) = bytes[j] := by
  induction bytes generalizing m addr j with
  | nil => simp at h
  | cons b bs ih =>
    cases j with
    | zero =>
      rw [Memory.writeList, Memory.read_writeList_outside _ _ _ (by omega)]
      exact Memory.read_write_same hm addr b
    | succ j =>
      rw [Memory.writeList, show addr + (j + 1) = addr + 1 + j by omega,
        ih (Memory.wf_write hm addr b) (addr + 1) (by simpa using h)]
      simp

/-- MemRead of a run just written gives it back. -/
theorem Memory.readList_writeList {m : Memory} (hm : Memory.wf m) (addr : Nat) (bytes : List Byte) {n : Nat}
    (h : n ≤ bytes.length) : Memory.readList (Memory.writeList m addr bytes) addr n = bytes.take n := by
  apply List.ext_getElem
  · simp [Memory.readList, h]
  · intro j h1 h2
    simp only [Memory.readList, List.length_map, List.length_range] at h1
    simp [Memory.readList, Memory.read_writeList_inside hm addr bytes (show j < bytes.length by omega)]

@[simp] theorem Memory.length_readList (m : Memory) (addr n : Nat) : (Memory.readList m addr n).length = n := by
  simp [Memory.readList]

/-- Two canonical memories that read alike everywhere are the same list. -/
theorem Memory.ext_of_wf {m m' : Memory} (h : Memory.wf m) (h' : Memory.wf m')
    (heq : ∀ a, Memory.read m a = Memory.read m' a) : m = m' := by
  induction m generalizing m' with
  | nil =>
    cases m' with
    | nil => rfl
    | cons c rest =>
      have := heq c.1
      simp only [Memory.read, if_true] at this
      exact absurd this.symm (h'.2 c (by simp))
  | cons c rest ih =>
    obtain ⟨k, v⟩ := c
    cases m' with
    | nil =>
      have := heq k
      simp only [Memory.read, if_true] at this
      exact absurd this (h.2 (k, v) (by simp))
    | cons d rest' =>
      obtain ⟨k', v'⟩ := d
      have hk : k = k' := by
        rcases Nat.lt_trichotomy k k' with hlt | heq' | hgt
        · have h1 := heq k
          rw [Memory.read_below (m := (k', v') :: rest') (fun c hc => by
            rcases List.mem_cons.1 hc with rfl | hc
            · exact hlt
            · exact Nat.lt_trans hlt (Memory.wf_head_lt h' hc))] at h1
          simp only [Memory.read, if_true] at h1
          exact absurd h1 (h.2 (k, v) (by simp))
        · exact heq'
        · have h1 := heq k'
          rw [Memory.read_below (m := (k, v) :: rest) (fun c hc => by
            rcases List.mem_cons.1 hc with rfl | hc
            · exact hgt
            · exact Nat.lt_trans hgt (Memory.wf_head_lt h hc))] at h1
          simp only [Memory.read, if_true] at h1
          exact absurd h1.symm (h'.2 (k', v') (by simp))
      subst hk
      have hv : v = v' := by simpa [Memory.read] using heq k
      subst hv
      have hrest : rest = rest' := by
        refine ih (Memory.wf_tail h) (Memory.wf_tail h') fun a => ?_
        by_cases hak : k = a
        · subst hak
          rw [Memory.read_below fun c hc => Memory.wf_head_lt h hc,
            Memory.read_below fun c hc => Memory.wf_head_lt h' hc]
        · simpa [Memory.read, hak] using heq a
      rw [hrest]

end Sys2Proof.Machine
end

