-- ==== Sys2Proof/Laws/Ops.lean ====
section
/-! SUPPORT. What each shared operation can do, said once: the guard, the three walks, the response handlers. -/

namespace Sys2Proof.Machine

theorem State.event_cons {s : State} {e : Edge} {rest : List Edge} (h : s.script = e :: rest) : s.event = e.event := by
  simp [State.event, h]

/-- An access that lies inside BUF goes on. -/
theorem guardBuf_inside {s : State} {addr n : Nat} (h : addr + n ≤ s.bufMax) (go : Result) :
    guardBuf s addr n go = go := by
  simp [guardBuf, h]

/-- The guard answers a next state only by going on. -/
theorem guardBuf_next {s t : State} {addr n : Nat} {go : Result} (h : guardBuf s addr n go = .next t) :
    addr + n ≤ s.bufMax ∧ go = .next t := by
  unfold guardBuf at h
  split at h
  · exact ⟨‹_›, h⟩
  · cases h

/-- Everything a pure command's step can do. -/
theorem pureOp_cases {i : Instr} {complete : State → Result} {s t : State} (h : pureOp i complete s = .next t) :
    (s.seq = .idle ∧ t = s.accept (encode i) .exec none) ∨
    (s.seq = .exec ∧ s.event = some .complete ∧ complete s.tick = .next t) ∨
    (s.seq ≠ .idle ∧ t = s.tick) := by
  unfold pureOp at h
  split at h
  · next hs => exact .inl ⟨hs, by cases h; rfl⟩
  · next hs he => exact .inr (.inl ⟨hs, he, h⟩)
  · next hn _ => exact .inr (.inr ⟨hn, by cases h; rfl⟩)

theorem pureOp_idle {s : State} (h : s.seq = .idle) (i : Instr) (complete : State → Result) :
    pureOp i complete s = .next (s.accept (encode i) .exec none) := by
  simp [pureOp, h]

theorem pureOp_complete {s : State} (h : s.seq = .exec) (he : s.event = some .complete) (i : Instr)
    (complete : State → Result) : pureOp i complete s = complete s.tick := by
  simp [pureOp, h, he]

/-- A pure command changes nothing on an event its walk does not await. -/
theorem pureOp_unawaited {s : State} (hs : s.seq ≠ .idle) (he : ¬ (s.seq = .exec ∧ s.event = some .complete)) (i : Instr)
    (complete : State → Result) : pureOp i complete s = .next s.tick := by
  unfold pureOp
  split
  · next h => exact absurd h hs
  · next h h' => exact absurd ⟨h, h'⟩ he
  · rfl

/-- Everything a two-wire command's step can do. -/
theorem twoWireOp_cases {i : Instr} {code : Byte} {convert : State → Word16 → State} {s t : State}
    (h : twoWireOp i code convert s = .next t) :
    (s.seq = .idle ∧ t = s.accept (encode i) .twWrite (some (twWriteRequest code))) ∨
    (∃ r, s.seq = .twWrite ∧ s.event = some (.twWriteDone r) ∧ t = onTwWriteDone r s.tick) ∨
    (s.seq = .twSettle ∧ s.event = some .dlyDone ∧ t = onDlyDone s.tick) ∨
    (∃ r, s.seq = .twRead ∧ s.event = some (.twReadDone r) ∧ onTwReadDone convert r s.tick = .next t) ∨
    (s.seq ≠ .idle ∧ t = s.tick) := by
  unfold twoWireOp at h
  split at h
  · next hs => exact .inl ⟨hs, by cases h; rfl⟩
  · next r hs he => exact .inr (.inl ⟨r, hs, he, by cases h; rfl⟩)
  · next hs he => exact .inr (.inr (.inl ⟨hs, he, by cases h; rfl⟩))
  · next r hs he => exact .inr (.inr (.inr (.inl ⟨r, hs, he, h⟩)))
  · next hn _ _ _ => exact .inr (.inr (.inr (.inr ⟨hn, by cases h; rfl⟩)))

theorem twoWireOp_idle {s : State} (h : s.seq = .idle) (i : Instr) (code : Byte) (convert : State → Word16 → State) :
    twoWireOp i code convert s = .next (s.accept (encode i) .twWrite (some (twWriteRequest code))) := by
  simp [twoWireOp, h]

theorem twoWireOp_writeDone {s : State} {r : Ack} (h : s.seq = .twWrite) (he : s.event = some (.twWriteDone r)) (i : Instr)
    (code : Byte) (convert : State → Word16 → State) :
    twoWireOp i code convert s = .next (onTwWriteDone r s.tick) := by
  simp [twoWireOp, h, he]

theorem twoWireOp_dlyDone {s : State} (h : s.seq = .twSettle) (he : s.event = some .dlyDone) (i : Instr) (code : Byte)
    (convert : State → Word16 → State) : twoWireOp i code convert s = .next (onDlyDone s.tick) := by
  simp [twoWireOp, h, he]

theorem twoWireOp_readDone {s : State} {r : TwReadResult} (h : s.seq = .twRead) (he : s.event = some (.twReadDone r))
    (i : Instr) (code : Byte) (convert : State → Word16 → State) :
    twoWireOp i code convert s = onTwReadDone convert r s.tick := by
  simp [twoWireOp, h, he]

/-- A two-wire command changes nothing on an event its walk does not await. -/
theorem twoWireOp_unawaited {s : State} (hs : s.seq ≠ .idle)
    (h1 : ∀ r, ¬ (s.seq = .twWrite ∧ s.event = some (.twWriteDone r)))
    (h2 : ¬ (s.seq = .twSettle ∧ s.event = some .dlyDone))
    (h3 : ∀ r, ¬ (s.seq = .twRead ∧ s.event = some (.twReadDone r))) (i : Instr) (code : Byte)
    (convert : State → Word16 → State) : twoWireOp i code convert s = .next s.tick := by
  unfold twoWireOp
  split
  · next h => exact absurd h hs
  · next h h' => exact absurd ⟨h, h'⟩ (h1 _)
  · next h h' => exact absurd ⟨h, h'⟩ h2
  · next h h' => exact absurd ⟨h, h'⟩ (h3 _)
  · rfl

/-- Everything a serial command's step can do. -/
theorem serialOp_cases {i : Instr} {extract : State → State} {s t : State} (h : serialOp i extract s = .next t) :
    (s.seq = .idle ∧ t = s.accept (encode i) .serWrite (some (.serWrite txFrame))) ∨
    (∃ r, s.seq = .serWrite ∧ s.event = some (.serWriteDone r) ∧ t = onSerWriteDone r s.tick) ∨
    (∃ r, s.seq = .serRead ∧ s.event = some (.serReadDone r) ∧ t = onSerReadDone extract r s.tick) ∨
    (s.seq ≠ .idle ∧ t = s.tick) := by
  unfold serialOp at h
  split at h
  · next hs => exact .inl ⟨hs, by cases h; rfl⟩
  · next r hs he => exact .inr (.inl ⟨r, hs, he, by cases h; rfl⟩)
  · next r hs he => exact .inr (.inr (.inl ⟨r, hs, he, by cases h; rfl⟩))
  · next hn _ _ => exact .inr (.inr (.inr ⟨hn, by cases h; rfl⟩))

theorem serialOp_idle {s : State} (h : s.seq = .idle) (i : Instr) (extract : State → State) :
    serialOp i extract s = .next (s.accept (encode i) .serWrite (some (.serWrite txFrame))) := by
  simp [serialOp, h]

theorem serialOp_writeDone {s : State} {r : Ack} (h : s.seq = .serWrite) (he : s.event = some (.serWriteDone r)) (i : Instr)
    (extract : State → State) : serialOp i extract s = .next (onSerWriteDone r s.tick) := by
  simp [serialOp, h, he]

theorem serialOp_readDone {s : State} {r : SerReadResult} (h : s.seq = .serRead) (he : s.event = some (.serReadDone r))
    (i : Instr) (extract : State → State) : serialOp i extract s = .next (onSerReadDone extract r s.tick) := by
  simp [serialOp, h, he]

/-- A serial command changes nothing on an event its walk does not await. -/
theorem serialOp_unawaited {s : State} (hs : s.seq ≠ .idle)
    (h1 : ∀ r, ¬ (s.seq = .serWrite ∧ s.event = some (.serWriteDone r)))
    (h2 : ∀ r, ¬ (s.seq = .serRead ∧ s.event = some (.serReadDone r))) (i : Instr) (extract : State → State) :
    serialOp i extract s = .next s.tick := by
  unfold serialOp
  split
  · next h => exact absurd h hs
  · next h h' => exact absurd ⟨h, h'⟩ (h1 _)
  · next h h' => exact absurd ⟨h, h'⟩ (h2 _)
  · rfl

/-- Everything the two-wire read response can do. -/
theorem onTwReadDone_cases {convert : State → Word16 → State} {r : TwReadResult} {s t : State}
    (h : onTwReadDone convert r s = .next t) :
    (r = .err ∧ t = s.raise .busError) ∨
    (∃ b0 b1 b2, r = .ok b0 b1 b2 ∧ rem24 b0 b1 b2 ≠ 0#24 ∧ t = (s.storeTwFrame b0 b1 b2).raise .checksumError) ∨
    (∃ b0 b1 b2, r = .ok b0 b1 b2 ∧ rem24 b0 b1 b2 = 0#24 ∧
      t = (convert ((s.storeTwFrame b0 b1 b2).setRaw (cleanedRaw b0 b1)) (cleanedRaw b0 b1)).finish) := by
  cases r with
  | err => exact .inl ⟨rfl, by cases h; rfl⟩
  | ok b0 b1 b2 =>
    obtain ⟨-, h⟩ := guardBuf_next h
    split at h
    · next hr => exact .inr (.inl ⟨b0, b1, b2, rfl, hr, by cases h; rfl⟩)
    · next hr => exact .inr (.inr ⟨b0, b1, b2, rfl, by simpa using hr, by cases h; rfl⟩)

/-- Everything the serial read response can do. -/
theorem onSerReadDone_cases (extract : State → State) (r : SerReadResult) (s : State) :
    (r = .err ∧ onSerReadDone extract r s = s.raise .busError) ∨
    (∃ bytes, r = .ok bytes ∧ (bytes.length < 11 ∨ s.bufMax < bytes.length) ∧
      onSerReadDone extract r s = (s.storeSerFrame bytes).raise .malformedFrame) ∨
    (∃ bytes, r = .ok bytes ∧ 11 ≤ bytes.length ∧ bytes.length ≤ s.bufMax ∧
      onSerReadDone extract r s = judgeSerFrame extract bytes.length (s.storeSerFrame bytes)) := by
  cases r with
  | err => exact .inl ⟨rfl, rfl⟩
  | ok bytes =>
    by_cases hb : bytes.length < 11 ∨ s.bufMax < bytes.length
    · exact .inr (.inl ⟨bytes, rfl, hb, by simp [onSerReadDone, Config.respMin, hb]⟩)
    · refine .inr (.inr ⟨bytes, rfl, by omega, by omega, ?_⟩)
      unfold onSerReadDone
      exact if_neg hb

/-- The response as the step judges it: the fields of BUF after the store are the received bytes. -/
theorem storeSerFrame_read {s : State} (hm : Memory.wf s.buf) {bytes : List Byte} (hn : bytes.length ≤ s.bufMax) {j : Nat}
    (h : j < bytes.length) : (s.storeSerFrame bytes).bufByte j = bytes[j] := by
  have htake : bytes.take (s.storedLength bytes) = bytes := by
    simp [State.storedLength, Nat.min_eq_left hn]
  simpa [State.bufByte, State.storeSerFrame, htake] using Memory.read_writeList_inside hm 0 bytes h

theorem storeSerFrame_memRead {s : State} (hm : Memory.wf s.buf) {bytes : List Byte} (hn : bytes.length ≤ s.bufMax) {k : Nat}
    (h : k ≤ bytes.length) : (s.storeSerFrame bytes).memRead 0 k = bytes.take k := by
  have htake : bytes.take (s.storedLength bytes) = bytes := by
    simp [State.storedLength, Nat.min_eq_left hn]
  simpa [State.memRead, State.storeSerFrame, htake] using Memory.readList_writeList hm 0 bytes h

end Sys2Proof.Machine
end

