-- ==== Sys2Proof/Laws/Step.lean ====
section
/-! SUPPORT. The fields of encoded words, what `exec` does by kind of command, and everything one step can do
(`step_moves`), which later proofs cite instead of unfolding the step. -/

namespace Sys2Proof.Machine

theorem getLsbD_encode (i : Instr) (j : Nat) :
    (encode i).getLsbD j = bif decide (j < 8) then i.opcode.getLsbD j else i.immediate.getLsbD (j - 8) :=
  (BitVec.getLsbD_append (x := i.immediate) (y := i.opcode)).trans (by by_cases h : j < 8 <;> simp [h])

/-- CMD.OP of an encoded word. -/
@[simp] theorem opField_encode (i : Instr) : opField (encode i) = i.opcode := by
  apply BitVec.eq_of_getLsbD_eq
  intro j hj
  simp [opField, getLsbD_encode, hj]

/-- CMD.IMM of an encoded word. -/
@[simp] theorem immField_encode (i : Instr) : immField (encode i) = i.immediate := by
  apply BitVec.eq_of_getLsbD_eq
  intro j hj
  simp [immField, getLsbD_encode, hj]

/-- A word is its two fields. -/
theorem word_of_fields (w : Word16) : immField w ++ opField w = w := by
  unfold immField opField
  apply BitVec.eq_of_getLsbD_eq
  intro j hj
  simp only [BitVec.getLsbD_append, BitVec.getLsbD_extractLsb']
  by_cases h : j < 8
  · simp [h]
  · have h1 : j - 8 < 8 := by omega
    have h2 : 8 + (j - 8) = j := by omega
    simp [h, h1, h2]

/-- The fields of a word that decodes are the command's. -/
theorem fields_of_decode {w : Word16} {i : Instr} (h : decode w = .instr i) :
    (opField w).toNat = i.opcode.toNat ∧ immField w = i.immediate := by
  unfold decode formatN at h
  split at h
  all_goals try split at h
  all_goals cases h
  all_goals exact ⟨‹_›, by first | assumption | rfl⟩

/-- The conversion a two-wire command ends with (R115). -/
def convertOf : Instr → State → Word16 → State
  | .meast => State.storeTemperature
  | .measrh => State.storeHumidity
  | _ => fun t _ => t

/-- What a serial command does with the status byte (R134). -/
def extractOf : Instr → State → State
  | .rdsc => fun t => t.setStatus (t.bufByte offStatus)
  | _ => fun t => t

/-- The Complete step of a pure command. -/
def completeOf : Instr → State → Result
  | .crc8chk => completeCrc8chk
  | .crc16 => completeCrc16
  | .crc16chk => completeCrc16chk
  | .convt => fun t => .next (t.storeTemperature t.raw).finish
  | .convrh => fun t => .next (t.storeHumidity t.raw).finish
  | _ => fun t => .next (t.storeCo2 t.raw).finish

/-- The command byte a two-wire command sends (R112). -/
def codeOf : Instr → Byte
  | .meas imm => imm
  | .meast => Config.cmdTemp
  | _ => Config.cmdHum

/-- The request a command's acceptance emits, in the model's terms. -/
def acceptRequest (i : Instr) : Option Request :=
  if isTwoWire i then some (twWriteRequest (codeOf i))
  else if isSerial i then some (.serWrite txFrame) else none

theorem exec_pure {i : Instr} (h : isPure i = true) (s : State) : exec i s = pureOp i (completeOf i) s := by
  cases i <;> first | rfl | simp [isPure, isTwoWire, isSerial] at h

theorem exec_twoWire {i : Instr} (h : isTwoWire i = true) (s : State) :
    exec i s = twoWireOp i (codeOf i) (convertOf i) s := by
  cases i <;> first | rfl | simp [isTwoWire] at h

theorem exec_serial {i : Instr} (h : isSerial i = true) (s : State) : exec i s = serialOp i (extractOf i) s := by
  cases i <;> first | rfl | simp [isSerial] at h

/-- Every command is pure, two-wire or serial. -/
theorem kinds (i : Instr) : isPure i = true ∨ isTwoWire i = true ∨ isSerial i = true := by
  cases i <;> simp [isPure, isTwoWire, isSerial]

/-- Acceptance of every command. -/
theorem exec_idle {s : State} (h : s.seq = .idle) (i : Instr) :
    exec i s = .next (s.accept (encode i) (startState i) (acceptRequest i)) := by
  rcases kinds i with hi | hi | hi
  · rw [exec_pure hi, pureOp_idle h]
    cases i <;> first | rfl | simp [isPure, isTwoWire, isSerial] at hi
  · rw [exec_twoWire hi, twoWireOp_idle h]
    cases i <;> first | rfl | simp [isTwoWire] at hi
  · rw [exec_serial hi, serialOp_idle h]
    cases i <;> first | rfl | simp [isSerial] at hi

/-- The command in flight, where CMD holds a command and SEQ is on its walk. -/
theorem inFlight_of_decode {s : State} {i : Instr} (h : decode s.cmd = .instr i) (hw : s.seq ∈ walk i) :
    inFlight s = some i := by
  obtain ⟨ho, hi⟩ := fields_of_decode h
  unfold inFlight State.cmdOp State.cmdImm
  cases i <;> simp only [walk, List.mem_cons, List.not_mem_nil, or_false] at hw <;> rw [ho] <;>
    simp only [Instr.opcode, Instr.immediate] at hi ⊢
  all_goals first
    | (rw [hw]; rfl)
    | (rcases hw with hw | hw <;> rw [hw] <;> rfl)
    | (rcases hw with hw | hw | hw <;> rw [hw] <;> first | rfl | (rw [hi]; rfl))

/-- What kind of command SEQ says is in flight. -/
theorem inFlight_kind {s : State} {i : Instr} (h : inFlight s = some i) :
    (s.seq = .exec ∧ isPure i = true) ∨
    ((s.seq = .twWrite ∨ s.seq = .twSettle ∨ s.seq = .twRead) ∧ isTwoWire i = true) ∨
    ((s.seq = .serWrite ∨ s.seq = .serRead) ∧ isSerial i = true) := by
  unfold inFlight at h
  split at h
  · cases h
  · next hs => split at h <;> cases h <;> simp [hs, isPure, isTwoWire, isSerial]
  · next hs => split at h <;> cases h <;> simp [hs, isTwoWire]
  · next hs => split at h <;> cases h <;> simp [hs, isTwoWire]
  · next hs => split at h <;> cases h <;> simp [hs, isTwoWire]
  · next hs => split at h <;> cases h <;> simp [hs, isSerial]
  · next hs => split at h <;> cases h <;> simp [hs, isSerial]

/-- Everything one step can do. -/
inductive Move (s : State) : State → Prop where
  /-- Nothing happened, or something without effect: a dropped write, an unawaited event. -/
  | quiet : Move s s.tick
  | reset (e : Edge) (rest : List Edge) (h : s.script = e :: rest) (hr : e.rst = true) : Move s s.resetEdge
  | hostRead (a : Index) (he : s.event = some (.hostRead a)) : Move s (onHostRead a s)
  | hostWrite (a : Index) (v : Word32) (hs : s.seq = .idle) (he : s.event = some (.hostWrite a v)) (ha : a ≠ 0x00#8) :
      Move s (writeIndex a v s.tick)
  | illegal (v : Word32) (hs : s.seq = .idle) (he : s.event = some (.hostWrite 0x00#8 v))
      (hd : ∀ i, decode (v.extractLsb' 0 16) ≠ .instr i) : Move s (s.illegal (v.extractLsb' 0 16))
  | accept (v : Word32) (i : Instr) (hs : s.seq = .idle) (he : s.event = some (.hostWrite 0x00#8 v))
      (hd : decode (v.extractLsb' 0 16) = .instr i) : Move s (s.accept (encode i) (startState i) (acceptRequest i))
  | complete (i : Instr) (t : State) (hi : isPure i = true) (hf : inFlight s = some i) (hs : s.seq = .exec)
      (he : s.event = some .complete) (h : completeOf i s.tick = .next t) : Move s t
  | twWriteDone (r : Ack) (hs : s.seq = .twWrite) (he : s.event = some (.twWriteDone r)) :
      Move s (onTwWriteDone r s.tick)
  | dlyDone (hs : s.seq = .twSettle) (he : s.event = some .dlyDone) : Move s (onDlyDone s.tick)
  | twReadErr (hs : s.seq = .twRead) (he : s.event = some (.twReadDone .err)) : Move s (s.tick.raise .busError)
  | twReadBad (b0 b1 b2 : Byte) (hs : s.seq = .twRead) (he : s.event = some (.twReadDone (.ok b0 b1 b2)))
      (hr : rem24 b0 b1 b2 ≠ 0#24) : Move s ((s.tick.storeTwFrame b0 b1 b2).raise .checksumError)
  | twReadGood (i : Instr) (b0 b1 b2 : Byte) (hi : isTwoWire i = true) (hf : inFlight s = some i) (hs : s.seq = .twRead)
      (he : s.event = some (.twReadDone (.ok b0 b1 b2))) (hr : rem24 b0 b1 b2 = 0#24) :
      Move s (convertOf i ((s.tick.storeTwFrame b0 b1 b2).setRaw (cleanedRaw b0 b1)) (cleanedRaw b0 b1)).finish
  | serWriteDone (r : Ack) (hs : s.seq = .serWrite) (he : s.event = some (.serWriteDone r)) :
      Move s (onSerWriteDone r s.tick)
  | serReadErr (hs : s.seq = .serRead) (he : s.event = some (.serReadDone .err)) : Move s (s.tick.raise .busError)
  | serReadLength (bytes : List Byte) (hs : s.seq = .serRead) (he : s.event = some (.serReadDone (.ok bytes)))
      (hn : bytes.length < 11 ∨ s.bufMax < bytes.length) :
      Move s ((s.tick.storeSerFrame bytes).raise .malformedFrame)
  | serReadJudged (i : Instr) (bytes : List Byte) (hi : isSerial i = true) (hf : inFlight s = some i) (hs : s.seq = .serRead)
      (he : s.event = some (.serReadDone (.ok bytes))) (h11 : 11 ≤ bytes.length) (hm : bytes.length ≤ s.bufMax) :
      Move s (judgeSerFrame (extractOf i) bytes.length (s.tick.storeSerFrame bytes))

/-- A step of the command in flight is one of the moves. -/
theorem exec_moves {s t : State} {i : Instr} (hf : inFlight s = some i) (h : exec i s = .next t) : Move s t := by
  have hidle : s.seq ≠ .idle := fun hs => by simp [inFlight, hs] at hf
  rcases kinds i with hi | hi | hi
  · rw [exec_pure hi] at h
    rcases pureOp_cases h with ⟨hs, -⟩ | ⟨hs, he, h⟩ | ⟨-, rfl⟩
    · exact absurd hs hidle
    · exact .complete i t hi hf hs he h
    · exact .quiet
  · rw [exec_twoWire hi] at h
    rcases twoWireOp_cases h with ⟨hs, -⟩ | ⟨r, hs, he, rfl⟩ | ⟨hs, he, rfl⟩ | ⟨r, hs, he, h⟩ | ⟨-, rfl⟩
    · exact absurd hs hidle
    · exact .twWriteDone r hs he
    · exact .dlyDone hs he
    · rcases onTwReadDone_cases h with ⟨rfl, rfl⟩ | ⟨b0, b1, b2, rfl, hr, rfl⟩ | ⟨b0, b1, b2, rfl, hr, rfl⟩
      · exact .twReadErr hs he
      · exact .twReadBad b0 b1 b2 hs he hr
      · exact .twReadGood i b0 b1 b2 hi hf hs he hr
    · exact .quiet
  · rw [exec_serial hi] at h
    rcases serialOp_cases h with ⟨hs, -⟩ | ⟨r, hs, he, rfl⟩ | ⟨r, hs, he, rfl⟩ | ⟨-, rfl⟩
    · exact absurd hs hidle
    · exact .serWriteDone r hs he
    · rcases onSerReadDone_cases (extractOf i) r s.tick with ⟨rfl, ht⟩ | ⟨bytes, rfl, hn, ht⟩ | ⟨bytes, rfl, h11, hm, ht⟩
      · rw [ht]; exact .serReadErr hs he
      · rw [ht]; exact .serReadLength bytes hs he hn
      · rw [ht]; exact .serReadJudged i bytes hi hf hs he h11 hm
    · exact .quiet

theorem ownEvent_moves {s t : State} (h : onOwnEvent s = .next t) : Move s t := by
  unfold onOwnEvent at h
  split at h
  · exact exec_moves ‹_› h
  · cases h; exact .quiet

/-- The step function on an edge that carries an event. -/
theorem step_event {s : State} {ev : Event} {rest : List Edge} (h : s.script = own ev :: rest) : step s = onEvent ev s := by
  simp [step, onEdge, h, own]

/-- Everything one step can do. -/
theorem step_moves {s t : State} (h : step s = .next t) : Move s t := by
  unfold step onEdge at h
  split at h
  · cases h; exact .quiet
  · next e rest hscript =>
    split at h
    · next hr => cases h; exact .reset e rest hscript hr
    · split at h
      · cases h; exact .quiet
      · next ev hev =>
        have he : s.event = some ev := by rw [State.event_cons hscript, hev]
        cases ev with
        | hostRead a => cases h; exact .hostRead a he
        | hostWrite a v =>
          unfold onEvent onHostWrite at h
          simp only at h
          split at h
          · cases h; exact .quiet
          · next hb =>
            have hs : s.seq = .idle := by simpa [State.busy] using hb
            split at h
            · next ha =>
              subst ha
              unfold acceptCommand at h
              split at h
              · next i hd =>
                rw [exec_idle hs] at h
                cases h
                exact .accept v i hs he hd
              · next hd => cases h; exact .illegal v hs he (by simp [hd])
              · next hd => cases h; exact .illegal v hs he (by simp [hd])
            · next ha => cases h; exact .hostWrite a v hs he ha
        | complete => exact ownEvent_moves h
        | twWriteDone r => exact ownEvent_moves h
        | dlyDone => exact ownEvent_moves h
        | twReadDone r => exact ownEvent_moves h
        | serWriteDone r => exact ownEvent_moves h
        | serReadDone r => exact ownEvent_moves h

/-- An event the sequencer state does not await is without effect. -/
theorem exec_unawaited {s : State} {i : Instr} {ev : Event} (hs : s.seq ≠ .idle) (he : s.event = some ev)
    (ha : s.seq.awaits ev = false) : exec i s = .next s.tick := by
  rcases kinds i with hi | hi | hi
  · rw [exec_pure hi]
    refine pureOp_unawaited hs (fun h => ?_) i _
    rw [h.1, Option.some.inj (he.symm.trans h.2)] at ha
    cases ha
  · rw [exec_twoWire hi]
    refine twoWireOp_unawaited hs (fun r h => ?_) (fun h => ?_) (fun r h => ?_) i _ _
    all_goals
      rw [h.1, Option.some.inj (he.symm.trans h.2)] at ha
      cases ha
  · rw [exec_serial hi]
    refine serialOp_unawaited hs (fun r h => ?_) (fun r h => ?_) i _
    all_goals
      rw [h.1, Option.some.inj (he.symm.trans h.2)] at ha
      cases ha

end Sys2Proof.Machine
end

