-- ==== Sys2Proof/Laws/PerInstr.lean ====
section
/-! SUPPORT. One statement per command about its word as syntax: the word meets its row of R63 (match and mask) and is legal
by R64. -/

namespace Sys2Proof.Laws.RowMatch

/-- The mask of a command's row (R63). -/
def mask : Instr → Word16
  | .meas _ => 0x00FF#16
  | _ => 0xFFFF#16

/-- The match value of a command's row (R63). -/
def matchWord : Instr → Word16
  | .crc8chk => 0x0001#16
  | .crc16 => 0x0002#16
  | .crc16chk => 0x0003#16
  | .convt => 0x0004#16
  | .convrh => 0x0005#16
  | .convco2 => 0x0006#16
  | .meas _ => 0x0007#16
  | .meast => 0x0008#16
  | .measrh => 0x0009#16
  | .rdsc => 0x000A#16
  | .rdco2 => 0x000B#16

/-- The command's word meets its row and is legal. -/
def Statement (i : Instr) : Prop :=
  encode i &&& mask i = matchWord i ∧ CommandWord.wellFormed (encode i) = true

theorem crc8chk : Statement .crc8chk := by unfold Statement; decide
theorem crc16 : Statement .crc16 := by unfold Statement; decide
theorem crc16chk : Statement .crc16chk := by unfold Statement; decide
theorem convt : Statement .convt := by unfold Statement; decide
theorem convrh : Statement .convrh := by unfold Statement; decide
theorem convco2 : Statement .convco2 := by unfold Statement; decide
theorem meas (imm : Byte) : Statement (.meas imm) := by
  have h : ∀ n : Fin 256, Statement (.meas (BitVec.ofFin n)) := by unfold Statement; decide +kernel
  exact h imm.toFin
theorem meast : Statement .meast := by unfold Statement; decide
theorem measrh : Statement .measrh := by unfold Statement; decide
theorem rdsc : Statement .rdsc := by unfold Statement; decide
theorem rdco2 : Statement .rdco2 := by unfold Statement; decide

end Sys2Proof.Laws.RowMatch
end

