-- ==== Sys2Proof/Tests/Slice0.lean ====
section
/-! SUPPORT. The model's own tests, and for each statement a witness that meets its hypotheses. Expected results are those of
95_test_vectors.md (V numbers) or are worked out by hand from the rule named. -/

namespace Sys2Proof.Tests

open Sys2Proof Sys2Proof.Machine

/-- A reset state with one edge to come. -/
def given (ev : Event) : State := { State.reset with script := [own ev] }

/-- A reset state in which the command word `w` is in flight at `q` and one event comes. -/
def busyAt (q : SeqState) (w : Word16) (ev : Event) : State :=
  { State.reset with seq := q, cmd := w, script := [own ev] }

/-- `busyAt` with `bytes` at the front of BUF and LEN their number. -/
def loaded (w : Word16) (bytes : List Byte) : State :=
  { busyAt .exec w .complete with buf := Memory.writeList [] 0 bytes, len := BitVec.ofNat 8 bytes.length }

/-- The answer is a next state of which `p` holds. -/
def after (r : Result) (p : State → Bool) : Bool :=
  match r with
  | .next t => p t
  | _ => false

/-- The frame of V21. -/
def goodRead : Event := .twReadDone (.ok 0x62#8 0x4F#8 0x9F#8)
/-- The frame of V22. -/
def badRead : Event := .twReadDone (.ok 0x62#8 0x4F#8 0x9E#8)
/-- The response of V27. -/
def response : List Byte :=
  [0xFE#8, 0x04#8, 0x08#8, 0x01#8, 0x00#8, 0x00#8, 0x00#8, 0x00#8, 0x00#8, 0x03#8, 0x20#8, 0xD7#8, 0xFE#8]
/-- The 11-byte response of V29. -/
def response11 : List Byte :=
  [0xFE#8, 0x04#8, 0x06#8, 0x00#8, 0x00#8, 0x00#8, 0x00#8, 0x00#8, 0x00#8, 0x25#8, 0x67#8]
/-- The corrupted response of V8. -/
def response11Bad : List Byte :=
  [0xFE#8, 0x04#8, 0x06#8, 0x00#8, 0x00#8, 0x00#8, 0x00#8, 0x00#8, 0x00#8, 0x25#8, 0x66#8]
/-- The 32-byte response of V32. -/
def response32 : List Byte := [0xFE#8, 0x04#8, 0x1B#8] ++ List.replicate 27 0x00#8 ++ [0x7E#8, 0xE8#8]
/-- The 33-byte response of V32. -/
def response33 : List Byte := [0xFE#8, 0x04#8, 0x1C#8] ++ List.replicate 28 0x00#8 ++ [0x28#8, 0x25#8]

-- WellFormed: each check refuses an ill-formed word (R64)

theorem test_wellFormed_opcode_zero : CommandWord.wellFormed 0x0000#16 = false := by decide
theorem test_wellFormed_opcode_above : CommandWord.wellFormed 0x000C#16 = false := by decide
theorem test_wellFormed_opcode_top : CommandWord.wellFormed 0x00FF#16 = false := by decide
theorem test_wellFormed_immediate_low : CommandWord.wellFormed 0x0106#16 = false := by decide
theorem test_wellFormed_immediate_high : CommandWord.wellFormed 0x800B#16 = false := by decide
theorem test_wellFormed_accepts :
    CommandWord.wellFormed 0x0001#16 = true ∧ CommandWord.wellFormed 0x000B#16 = true ∧ CommandWord.wellFormed 0xFF07#16 = true := by
  decide

-- Decode: every constructor from its word, written bit by bit from R61 and R63

theorem test_decode_crc8chk : decode 0b0000000000000001#16 = .instr .crc8chk := by decide
theorem test_decode_crc16 : decode 0b0000000000000010#16 = .instr .crc16 := by decide
theorem test_decode_crc16chk : decode 0b0000000000000011#16 = .instr .crc16chk := by decide
theorem test_decode_convt : decode 0b0000000000000100#16 = .instr .convt := by decide
theorem test_decode_convrh : decode 0b0000000000000101#16 = .instr .convrh := by decide
theorem test_decode_convco2 : decode 0b0000000000000110#16 = .instr .convco2 := by decide
theorem test_decode_meas : decode 0b1110001100000111#16 = .instr (.meas 0xE3#8) := by decide
theorem test_decode_meast : decode 0b0000000000001000#16 = .instr .meast := by decide
theorem test_decode_measrh : decode 0b0000000000001001#16 = .instr .measrh := by decide
theorem test_decode_rdsc : decode 0b0000000000001010#16 = .instr .rdsc := by decide
theorem test_decode_rdco2 : decode 0b0000000000001011#16 = .instr .rdco2 := by decide
/-- V35. -/
theorem test_decode_immediate : decode 0x0108#16 = .immediateNotZero 0x08#8 0x01#8 := by decide
/-- V35. -/
theorem test_decode_reserved : decode 0x000C#16 = .reservedOpcode 0x0C#8 := by decide
theorem test_tableWord : decodeTableWord 16 0xE307 = some (.meas 0xE3#8) ∧ decodeTableWord 16 0x000C = none := by decide
/-- The placed word is what the next step accepts (R60). -/
theorem test_withFetchWord :
    after (step (State.reset.withFetchWord 16 0x0008)) (fun t => t.cmd == 0x0008#16 && t.seq == .twWrite) = true := by
  decide

-- The algorithms

/-- V9. -/
theorem test_crc8_gen :
    crc8Gen 0x00#8 0x01#8 = 0x31#8 ∧ crc8Gen 0x80#8 0x00#8 = 0x23#8 ∧ crc8Gen 0xFF#8 0xFF#8 = 0x2D#8 := by
  decide +kernel
/-- V12. -/
theorem test_crc16_values :
    crc16 [] = 0xFFFF#16 ∧ crc16 [0x00#8] = 0x40BF#16 ∧ crc16 [0x01#8, 0x02#8] = 0xE181#16 ∧
      crc16 [0x31#8, 0x32#8, 0x33#8, 0x34#8, 0x35#8, 0x36#8, 0x37#8, 0x38#8, 0x39#8] = 0x4B37#16 := by
  decide +kernel
/-- V1, V3. -/
theorem test_conv_boundary : convT 0 = -307036160 ∧ convT 65536 = 844562432 ∧ convRh 65536 = 7798784 := by decide

-- One step of each command

/-- V10, a valid frame. -/
theorem test_crc8chk_valid :
    after (step (loaded 0x0001#16 [0x62#8, 0x4F#8, 0x9F#8])) (fun t => t.rem == 0#24 && t.statWord == 0x0000000A#32) = true := by
  decide +kernel
/-- V10, an invalid frame is no fault. -/
theorem test_crc8chk_invalid :
    after (step (loaded 0x0001#16 [0xFF#8, 0xFF#8, 0xFF#8])) (fun t => t.rem == 0xD2#24 && t.statWord == 0x00000002#32) = true := by
  decide +kernel
/-- V13. -/
theorem test_crc16_request :
    after (step (loaded 0x0002#16 [0xFE#8, 0x04#8, 0x00#8, 0x00#8, 0x00#8, 0x04#8]))
      (fun t => t.crc16 == 0xC6E5#16 && t.statWord == 0x00000002#32) = true := by
  decide +kernel
/-- V13, LEN = 33. -/
theorem test_crc16_range :
    after (step { loaded 0x0002#16 [] with len := 33#8 }) (fun t => t.crc16 == 0#16 && t.statWord == 0x00000506#32) = true := by
  decide +kernel
/-- V14, the trailer in the right order. -/
theorem test_crc16chk_match :
    after (step (loaded 0x0003#16 [0xFE#8, 0x04#8, 0x00#8, 0x00#8, 0x00#8, 0x04#8, 0xE5#8, 0xC6#8]))
      (fun t => t.crc16 == 0xC6E5#16 && t.statWord == 0x00000012#32) = true := by
  decide +kernel
/-- V14, the trailer's bytes swapped. -/
theorem test_crc16chk_swapped :
    after (step (loaded 0x0003#16 [0xFE#8, 0x04#8, 0x00#8, 0x00#8, 0x00#8, 0x04#8, 0xC6#8, 0xE5#8]))
      (fun t => t.crc16 == 0xC6E5#16 && t.statWord == 0x00000002#32) = true := by
  decide +kernel
/-- V17, the last negative row; RAW is not masked. -/
theorem test_convt :
    after (step { busyAt .exec 0x0004#16 .complete with raw := 0x4441#16 })
      (fun t => t.tnum == 0xFFFFFDA4#32 && t.raw == 0x4441#16 && t.statWord == 0x00000002#32) = true := by
  decide +kernel
/-- V18. -/
theorem test_convrh :
    after (step { busyAt .exec 0x0005#16 .complete with raw := 0xFFFF#16 })
      (fun t => t.rhnum == 0x0076FF83#32 && t.tnum == 0#32) = true := by
  decide +kernel
/-- V19. -/
theorem test_convco2 :
    after (step { busyAt .exec 0x0006#16 .complete with raw := 0x0320#16 }) (fun t => t.co2 == 800#16 && t.status == 0#8) = true := by
  decide +kernel
/-- V25: the check is on the bytes as received, the mask comes after. -/
theorem test_meas_masks :
    after (step (busyAt .twRead 0xE507#16 (.twReadDone (.ok 0x7C#8 0x83#8 0xA6#8))))
      (fun t => t.raw == 0x7C80#16 && t.bufByte 1 == 0x83#8 && t.tnum == 0#32 && t.statWord == 0x0000000A#32) = true := by
  decide +kernel
/-- V23. -/
theorem test_meas_busError :
    after (step (busyAt .twWrite 0xE307#16 (.twWriteDone .err)))
      (fun t => t.statWord == 0x00000306#32 && t.request == none && t.cmd == 0xE307#16) = true := by
  decide +kernel
/-- V21, step 4. -/
theorem test_meast_read :
    after (step (busyAt .twRead 0x0008#16 goodRead))
      (fun t => t.tnum == 0x080E28B0#32 && t.raw == 0x624C#16 && t.len == 3#8 && t.statWord == 0x0000000A#32) = true := by
  decide +kernel
/-- V22. -/
theorem test_meast_checksum :
    after (step (busyAt .twRead 0x0008#16 badRead))
      (fun t => t.rem == 1#24 && t.raw == 0#16 && t.tnum == 0#32 && t.bufByte 2 == 0x9E#8 && t.statWord == 0x00000106#32) = true := by
  decide +kernel
/-- V26. -/
theorem test_measrh_read :
    after (step (busyAt .twRead 0x0009#16 (.twReadDone (.ok 0x7C#8 0x82#8 0x97#8))))
      (fun t => t.raw == 0x7C80#16 && t.rhnum == 0x0036CA80#32 && t.tnum == 0#32) = true := by
  decide +kernel
/-- V21, step 2, for MEASRH. -/
theorem test_measrh_settle :
    after (step (busyAt .twWrite 0x0009#16 (.twWriteDone .ok)))
      (fun t => t.request == some (.dlyStart 50#16) && t.statWord == 0x00003001#32) = true := by
  decide +kernel
/-- V27, step 3. -/
theorem test_rdsc_read :
    after (step (busyAt .serRead 0x000A#16 (.serReadDone (.ok response))))
      (fun t => t.status == 0x01#8 && t.co2 == 800#16 && t.crc16 == 0xFED7#16 && t.len == 13#8 && t.statWord == 0x00000012#32)
      = true := by
  decide +kernel
/-- V8. -/
theorem test_rdsc_corrupted :
    after (step (busyAt .serRead 0x000A#16 (.serReadDone (.ok response11Bad))))
      (fun t => t.crc16 == 0x6725#16 && t.co2 == 0#16 && t.len == 11#8 && t.statWord == 0x00000106#32) = true := by
  decide +kernel
/-- V28: STATUS stays, though the response's status byte is 0x01 here. -/
theorem test_rdco2_read :
    after (step { busyAt .serRead 0x000B#16 (.serReadDone (.ok response)) with status := 0x77#8 })
      (fun t => t.status == 0x77#8 && t.co2 == 800#16) = true := by
  decide +kernel
/-- V32: one byte too many; 32 bytes are stored, the rest is not. -/
theorem test_rdco2_too_long :
    after (step (busyAt .serRead 0x000B#16 (.serReadDone (.ok response33))))
      (fun t => t.bufByte 31 == 0x28#8 && t.len == 32#8 && t.crc16 == 0#16 && t.statWord == 0x00000206#32) = true := by
  decide +kernel

-- Host port and reset

/-- V35: the upper data bits are ignored, an illegal word is latched. -/
theorem test_accept_upper_bits :
    after (step (given (.hostWrite 0x00#8 0x12340001#32))) (fun t => t.cmd == 0x0001#16 && t.statWord == 0x00001001#32) = true ∧
    after (step (given (.hostWrite 0x00#8 0x00000108#32)))
      (fun t => t.cmd == 0x0108#16 && t.request == none && t.statWord == 0x00000406#32) = true := by
  decide +kernel
/-- V36. -/
theorem test_write_while_busy :
    after (step (busyAt .twWrite 0xE307#16 (.hostWrite 0x03#8 0x1234#32))) (fun t => t.raw == 0#16 && t.statWord == 0x00002001#32)
      = true := by
  decide +kernel
/-- V37. -/
theorem test_reserved_indices :
    after (step (given (.hostRead 0xA0#8))) (fun t => t.rdata == some 0#32) = true ∧
    after (step (given (.hostWrite 0x04#8 0x55#32))) (fun t => t.tnum == 0#32) = true ∧
    after (step (given (.hostWrite 0x02#8 0x1FF#32))) (fun t => t.len == 0xFF#8) = true := by
  decide +kernel
/-- V38. -/
theorem test_reset_mid_operation :
    after (step { busyAt .twSettle 0x0008#16 .dlyDone with raw := 7#16, script := [{ rst := true, event := some .dlyDone }] })
      (fun t => t.raw == 0#16 && t.request == none && t.statWord == 0#32) = true := by
  decide +kernel
/-- R28: byte 0 in bits 63:56. -/
theorem test_pins : packFrame txFrame = 0xFE0400000004E5C6#64 := by decide +kernel

-- Witnesses: for each statement with hypotheses, a state and operands that meet them together

theorem witness_DecodeEncodeAgree : decode 0xFF07#16 = .instr (.meas 0xFF#8) := by decide

/-- A word that no command has. -/
theorem no_command {w : Word16} {op : Byte} (h : decode w = .reservedOpcode op) : ¬ ∃ i, decode w = .instr i := by
  rintro ⟨i, hi⟩
  rw [h] at hi
  cases hi

theorem witness_LegalWordsAndIllegalWords :
    (given (.hostWrite 0x00#8 0x0000000C#32)).seq = .idle ∧
    (given (.hostWrite 0x00#8 0x0000000C#32)).script = own (.hostWrite 0x00#8 0x0000000C#32) :: [] ∧
    ¬ ∃ i, decode ((0x0000000C#32).extractLsb' 0 16) = .instr i :=
  ⟨rfl, rfl, no_command (op := 0x0C#8) (by decide)⟩

theorem witness_StepRunsTheDecodedCommand_accept :
    (given (.hostWrite 0x00#8 0x0000FF07#32)).seq = .idle ∧
    (given (.hostWrite 0x00#8 0x0000FF07#32)).script = own (.hostWrite 0x00#8 0x0000FF07#32) :: [] ∧
    decode ((0x0000FF07#32).extractLsb' 0 16) = .instr (.meas 0xFF#8) := by
  decide

theorem witness_StepRunsTheDecodedCommand_awaited :
    (busyAt .serRead 0x000B#16 (.serReadDone .err)).script = own (.serReadDone .err) :: [] ∧
    (busyAt .serRead 0x000B#16 (.serReadDone .err)).seq.awaits (.serReadDone .err) = true ∧
    decode (busyAt .serRead 0x000B#16 (.serReadDone .err)).cmd = .instr .rdco2 ∧
    (busyAt .serRead 0x000B#16 (.serReadDone .err)).seq ∈ walk .rdco2 := by
  decide

theorem witness_CommandAcceptance_busy :
    (busyAt .exec 0x0001#16 (.hostWrite 0x00#8 1#32)).script = own (.hostWrite 0x00#8 1#32) :: [] ∧
    (busyAt .exec 0x0001#16 (.hostWrite 0x00#8 1#32)).seq ≠ .idle := by
  decide

theorem witness_CommandAcceptance_illegal :
    (given (.hostWrite 0x00#8 0x0106#32)).script = own (.hostWrite 0x00#8 0x0106#32) :: [] ∧
    (given (.hostWrite 0x00#8 0x0106#32)).seq = .idle ∧
    legal ((((0x0106#32).extractLsb' 0 16 : Word16)).extractLsb' 0 8) ((((0x0106#32).extractLsb' 0 16 : Word16)).extractLsb' 8 8)
      = false := by
  decide

/-- CONVCO2, the last pure command. -/
theorem witness_CommandAcceptance_pure :
    (given (.hostWrite 0x00#8 0x06#32)).script = own (.hostWrite 0x00#8 0x06#32) :: [] ∧
    (given (.hostWrite 0x00#8 0x06#32)).seq = .idle ∧
    legal (((0x06#32).extractLsb' 0 16 : Word16).extractLsb' 0 8) (((0x06#32).extractLsb' 0 16 : Word16).extractLsb' 8 8) = true ∧
    (((0x06#32).extractLsb' 0 16 : Word16).extractLsb' 0 8) ≤ 0x06#8 := by
  decide

/-- MEASRH, the last two-wire command. -/
theorem witness_CommandAcceptance_twoWire :
    (given (.hostWrite 0x00#8 0x09#32)).script = own (.hostWrite 0x00#8 0x09#32) :: [] ∧
    (given (.hostWrite 0x00#8 0x09#32)).seq = .idle ∧
    legal (((0x09#32).extractLsb' 0 16 : Word16).extractLsb' 0 8) (((0x09#32).extractLsb' 0 16 : Word16).extractLsb' 8 8) = true ∧
    0x07#8 ≤ (((0x09#32).extractLsb' 0 16 : Word16).extractLsb' 0 8) ∧
    (((0x09#32).extractLsb' 0 16 : Word16).extractLsb' 0 8) ≤ 0x09#8 := by
  decide

/-- MEAS 0xFF, the first two-wire opcode. -/
theorem witness_CommandAcceptance_meas :
    (given (.hostWrite 0x00#8 0xFF07#32)).script = own (.hostWrite 0x00#8 0xFF07#32) :: [] ∧
    (given (.hostWrite 0x00#8 0xFF07#32)).seq = .idle ∧
    legal (((0xFF07#32).extractLsb' 0 16 : Word16).extractLsb' 0 8) (((0xFF07#32).extractLsb' 0 16 : Word16).extractLsb' 8 8) = true ∧
    0x07#8 ≤ (((0xFF07#32).extractLsb' 0 16 : Word16).extractLsb' 0 8) ∧
    (((0xFF07#32).extractLsb' 0 16 : Word16).extractLsb' 0 8) ≤ 0x09#8 := by
  decide

/-- RDSC, the first serial command. -/
theorem witness_CommandAcceptance_serial :
    (given (.hostWrite 0x00#8 0x0A#32)).script = own (.hostWrite 0x00#8 0x0A#32) :: [] ∧
    (given (.hostWrite 0x00#8 0x0A#32)).seq = .idle ∧
    legal (((0x0A#32).extractLsb' 0 16 : Word16).extractLsb' 0 8) (((0x0A#32).extractLsb' 0 16 : Word16).extractLsb' 8 8) = true ∧
    0x0A#8 ≤ (((0x0A#32).extractLsb' 0 16 : Word16).extractLsb' 0 8) := by
  decide

theorem witness_ExecStartsEachCommand : State.reset.seq = .idle := rfl

/-- LEN = 3 and LEN = 2. -/
theorem witness_Crc8chkCompletes :
    (loaded 0x0001#16 [0#8, 1#8, 0x31#8]).seq = .exec ∧ (loaded 0x0001#16 [0#8, 1#8, 0x31#8]).event = some .complete ∧
    Config.bufMaxLow ≤ (loaded 0x0001#16 [0#8, 1#8, 0x31#8]).bufMax ∧ (loaded 0x0001#16 [0#8, 1#8, 0x31#8]).len = 3#8 ∧
    (loaded 0x0001#16 [0#8, 1#8]).seq = .exec ∧ (loaded 0x0001#16 [0#8, 1#8]).event = some .complete ∧
    (loaded 0x0001#16 [0#8, 1#8]).len ≠ 3#8 := by
  decide

/-- LEN = BUF_MAX and LEN = BUF_MAX + 1. -/
theorem witness_Crc16Completes :
    (loaded 0x0002#16 (List.replicate 32 1#8)).seq = .exec ∧ (loaded 0x0002#16 (List.replicate 32 1#8)).event = some .complete ∧
    (loaded 0x0002#16 (List.replicate 32 1#8)).len.toNat ≤ (loaded 0x0002#16 (List.replicate 32 1#8)).bufMax ∧
    ¬ (loaded 0x0002#16 (List.replicate 33 1#8)).len.toNat ≤ (loaded 0x0002#16 (List.replicate 33 1#8)).bufMax := by
  decide +kernel

/-- LEN = 2, the least a frame can have, and LEN = 1. -/
theorem witness_Crc16chkCompletes :
    (loaded 0x0003#16 [0xFF#8, 0xFF#8]).seq = .exec ∧ (loaded 0x0003#16 [0xFF#8, 0xFF#8]).event = some .complete ∧
    2 ≤ (loaded 0x0003#16 [0xFF#8, 0xFF#8]).len.toNat ∧ (loaded 0x0003#16 [0xFF#8]).len.toNat < 2 := by
  decide

theorem witness_ConvtCompletes :
    (busyAt .exec 0x0004#16 .complete).seq = .exec ∧ (busyAt .exec 0x0004#16 .complete).event = some .complete := by decide
theorem witness_ConvrhCompletes :
    (busyAt .exec 0x0005#16 .complete).seq = .exec ∧ (busyAt .exec 0x0005#16 .complete).event = some .complete := by decide
theorem witness_Convco2Completes :
    (busyAt .exec 0x0006#16 .complete).seq = .exec ∧ (busyAt .exec 0x0006#16 .complete).event = some .complete := by decide

/-- Each clause at a boundary: LEN = 4 for CRC8CHK, 33 for CRC16, 1 and 33 for CRC16CHK. -/
theorem witness_OperandRangeWritesOnlyStat :
    (loaded 0x0001#16 []).seq = .exec ∧ (loaded 0x0001#16 []).event = some .complete ∧
    ({ loaded 0x0001#16 [] with len := 4#8 } : State).len ≠ 3#8 ∧
    ({ loaded 0x0002#16 [] with len := 33#8 } : State).bufMax < ({ loaded 0x0002#16 [] with len := 33#8 } : State).len.toNat ∧
    ({ loaded 0x0003#16 [] with len := 1#8 } : State).len.toNat < 2 ∧
    ({ loaded 0x0003#16 [] with len := 33#8 } : State).bufMax < ({ loaded 0x0003#16 [] with len := 33#8 } : State).len.toNat := by
  decide

theorem witness_PureCommandsFrame :
    isPure .convco2 = true ∧ (busyAt .exec 0x0006#16 .complete).seq = .exec ∧
    ∃ t, exec .convco2 (busyAt .exec 0x0006#16 .complete) = .next t :=
  ⟨rfl, rfl, _, rfl⟩

/-- Both answers to the write request. -/
theorem witness_TwWriteDoneStartsTheSettleDelay :
    isTwoWire (.meas 0xE3#8) = true ∧ (busyAt .twWrite 0xE307#16 (.twWriteDone .ok)).seq = .twWrite ∧
    (busyAt .twWrite 0xE307#16 (.twWriteDone .ok)).event = some (.twWriteDone .ok) ∧
    (busyAt .twWrite 0xE307#16 (.twWriteDone .err)).seq = .twWrite ∧
    (busyAt .twWrite 0xE307#16 (.twWriteDone .err)).event = some (.twWriteDone .err) := by
  decide

theorem witness_DlyDoneStartsTheRead :
    isTwoWire .meast = true ∧ (busyAt .twSettle 0x0008#16 .dlyDone).seq = .twSettle ∧
    (busyAt .twSettle 0x0008#16 .dlyDone).event = some .dlyDone := by
  decide

theorem witness_TwReadDoneValidatesThenExtracts_valid :
    (busyAt .twRead 0x0008#16 goodRead).seq = .twRead ∧
    (busyAt .twRead 0x0008#16 goodRead).event = some (.twReadDone (.ok 0x62#8 0x4F#8 0x9F#8)) ∧
    Config.bufMaxLow ≤ (busyAt .twRead 0x0008#16 goodRead).bufMax ∧ rem24 0x62#8 0x4F#8 0x9F#8 = 0#24 := by
  decide +kernel

/-- A frame that fails the check, and `err`. -/
theorem witness_TwReadDoneValidatesThenExtracts_bad :
    isTwoWire .measrh = true ∧ (busyAt .twRead 0x0009#16 badRead).seq = .twRead ∧
    (busyAt .twRead 0x0009#16 badRead).event = some (.twReadDone (.ok 0x62#8 0x4F#8 0x9E#8)) ∧
    Config.bufMaxLow ≤ (busyAt .twRead 0x0009#16 badRead).bufMax ∧ rem24 0x62#8 0x4F#8 0x9E#8 ≠ 0#24 ∧
    (busyAt .twRead 0x0009#16 (.twReadDone .err)).seq = .twRead ∧
    (busyAt .twRead 0x0009#16 (.twReadDone .err)).event = some (.twReadDone .err) := by
  decide +kernel

theorem witness_TwoWireCommandsFrame :
    isTwoWire .meast = true ∧ (busyAt .twSettle 0x0008#16 .dlyDone).seq ≠ .idle ∧
    (∃ t, exec .meast (busyAt .twSettle 0x0008#16 .dlyDone) = .next t) ∧
    (busyAt .twSettle 0x0008#16 .dlyDone).seq ≠ .twRead :=
  ⟨rfl, by decide, ⟨_, rfl⟩, by decide⟩

theorem witness_SerWriteDoneStartsTheRead :
    isSerial .rdsc = true ∧ (busyAt .serWrite 0x000A#16 (.serWriteDone .ok)).seq = .serWrite ∧
    (busyAt .serWrite 0x000A#16 (.serWriteDone .ok)).event = some (.serWriteDone .ok) ∧
    (busyAt .serWrite 0x000A#16 (.serWriteDone .err)).event = some (.serWriteDone .err) := by
  decide

/-- The shortest accepted response and, at BUF_MAX = 32, the longest. -/
theorem witness_SerReadDoneGuardsValidatesThenExtracts_valid :
    11 ≤ response11.length ∧ (busyAt .serRead 0x000A#16 (.serReadDone (.ok response11))).seq = .serRead ∧
    (busyAt .serRead 0x000A#16 (.serReadDone (.ok response11))).event = some (.serReadDone (.ok response11)) ∧
    Memory.wf (busyAt .serRead 0x000A#16 (.serReadDone (.ok response11))).buf ∧
    response11.length ≤ (busyAt .serRead 0x000A#16 (.serReadDone (.ok response11))).bufMax ∧ trailerOk response11 ∧
    11 ≤ response32.length ∧ response32.length ≤ (busyAt .serRead 0x000A#16 (.serReadDone (.ok response32))).bufMax ∧
    trailerOk response32 := by
  unfold trailerOk
  decide +kernel

/-- A response of 10 bytes, one of 33, one with a corrupted trailer, and `err`. -/
theorem witness_SerReadDoneGuardsValidatesThenExtracts_bad :
    isSerial .rdco2 = true ∧ (busyAt .serRead 0x000B#16 (.serReadDone .err)).seq = .serRead ∧
    (busyAt .serRead 0x000B#16 (.serReadDone .err)).event = some (.serReadDone .err) ∧
    Memory.wf (busyAt .serRead 0x000B#16 (.serReadDone .err)).buf ∧ (response11.take 10).length < 11 ∧
    (busyAt .serRead 0x000B#16 (.serReadDone (.ok response33))).event = some (.serReadDone (.ok response33)) ∧
    (busyAt .serRead 0x000B#16 (.serReadDone (.ok response33))).bufMax < response33.length ∧
    (busyAt .serRead 0x000B#16 (.serReadDone (.ok response11Bad))).event = some (.serReadDone (.ok response11Bad)) ∧
    11 ≤ response11Bad.length ∧ response11Bad.length ≤ (busyAt .serRead 0x000B#16 (.serReadDone (.ok response11Bad))).bufMax ∧
    ¬ trailerOk response11Bad := by
  unfold trailerOk
  decide +kernel

theorem witness_SerialCommandsFrame :
    isSerial .rdco2 = true ∧ (busyAt .serWrite 0x000B#16 (.serWriteDone .ok)).seq ≠ .idle ∧
    (∃ t, exec .rdco2 (busyAt .serWrite 0x000B#16 (.serWriteDone .ok)) = .next t) ∧
    (busyAt .serWrite 0x000B#16 (.serWriteDone .ok)).seq ≠ .serRead :=
  ⟨rfl, by decide, ⟨_, rfl⟩, by decide⟩

/-- The clauses at their boundaries: 0x0A and 0x7F are reserved, 0x80 and 0x9F are BUF[0] and BUF[31], 0xA0 is beyond. -/
theorem witness_HostReadReturnsTheRegister :
    (given (.hostRead 0x9F#8)).script = own (.hostRead 0x9F#8) :: [] ∧ 31 < State.reset.bufMax ∧ (0x9F#8).toNat = 0x80 + 31 ∧
    (0x80#8).toNat = 0x80 + 0 ∧ 0x0A ≤ (0x0A#8).toNat ∧ (0x7F#8).toNat < 0x80 ∧ 0x80 + State.reset.bufMax ≤ (0xA0#8).toNat := by
  decide

theorem witness_TransmittedFrame : isSerial .rdco2 = true ∧ State.reset.seq = .idle := by decide

/-- The two clauses about CMD: a legal word and an illegal one. -/
theorem witness_HostWriteWhileIdle_command :
    (given (.hostWrite 0x00#8 0x0000000B#32)).script = own (.hostWrite 0x00#8 0x0000000B#32) :: [] ∧
    (given (.hostWrite 0x00#8 0x0000000B#32)).seq = .idle ∧ decode ((0x0000000B#32).extractLsb' 0 16) = .instr .rdco2 ∧
    (given (.hostWrite 0x00#8 0x0000000C#32)).script = own (.hostWrite 0x00#8 0x0000000C#32) :: [] ∧
    ¬ ∃ i, decode ((0x0000000C#32).extractLsb' 0 16) = .instr i :=
  ⟨rfl, rfl, by decide, rfl, no_command (op := 0x0C#8) (by decide)⟩

/-- LEN, RAW, BUF[31], and an index without a writable register. -/
theorem witness_HostWriteWhileIdle :
    (given (.hostWrite 0x9F#8 1#32)).script = own (.hostWrite 0x9F#8 1#32) :: [] ∧ (given (.hostWrite 0x9F#8 1#32)).seq = .idle ∧
    31 < State.reset.bufMax ∧ (0x9F#8).toNat = 0x80 + 31 ∧
    (given (.hostWrite 0x02#8 1#32)).script = own (.hostWrite 0x02#8 1#32) :: [] ∧
    (given (.hostWrite 0x03#8 1#32)).script = own (.hostWrite 0x03#8 1#32) :: [] ∧
    (0x01#8 ≠ 0x00#8 ∧ 0x01#8 ≠ 0x02#8 ∧ 0x01#8 ≠ 0x03#8 ∧ (0x01#8).toNat < 0x80) ∧
    (0xA0#8 ≠ 0x00#8 ∧ 0xA0#8 ≠ 0x02#8 ∧ 0xA0#8 ≠ 0x03#8 ∧ 0x80 + State.reset.bufMax ≤ (0xA0#8).toNat) := by
  decide

theorem witness_HostWriteWhileBusyIsDropped :
    (busyAt .twWrite 0xE307#16 (.hostWrite 0x03#8 0x1234#32)).script = own (.hostWrite 0x03#8 0x1234#32) :: [] ∧
    (busyAt .twWrite 0xE307#16 (.hostWrite 0x03#8 0x1234#32)).seq ≠ .idle := by
  decide

theorem witness_ResetWinsAndClearsEverything :
    ({ State.reset with script := [{ rst := true, event := some .dlyDone }] } : State).script
      = { rst := true, event := some .dlyDone } :: [] := by
  decide

theorem witness_UnawaitedResponseIsIgnored :
    (busyAt .twWrite 0x0008#16 .dlyDone).script = own .dlyDone :: [] ∧
    (busyAt .twWrite 0x0008#16 .dlyDone).seq.awaits .dlyDone = false ∧
    (∀ a v, Event.dlyDone ≠ .hostWrite a v) ∧ (∀ a, Event.dlyDone ≠ .hostRead a) ∧ Event.dlyDone ≠ .complete :=
  ⟨rfl, rfl, by simp, by simp, by simp⟩

/-- A state of MEAST in flight that meets the invariant, and whose step answers. -/
theorem witness_EveryStepKeepsTheBlockInvariant :
    (busyAt .twSettle 0x0008#16 .dlyDone).Inv ∧ ∃ t, step (busyAt .twSettle 0x0008#16 .dlyDone) = .next t := by
  refine ⟨?_, _, rfl⟩
  exact {
    bufMax_range := by decide
    buf_wf := by decide
    buf_bound := by decide
    rem_small := by decide
    valid_rem := by decide
    tnum_range := by decide
    rhnum_range := by decide
    seq_cmd := .inr ⟨.meast, by decide, by decide⟩
    busy_clear := by decide
    err_done := by decide
    request_outstanding := by decide }

/-- The least BUF_MAX. -/
theorem witness_EveryStepAnswersANextState : Config.bufMaxLow ≤ ({ State.reset with bufMax := 11 } : State).bufMax := by decide

theorem witness_SeqTakesOnlyItsOrders :
    ∃ t, step (busyAt .twSettle 0x0008#16 .dlyDone) = .next t ∧ t.seq ≠ (busyAt .twSettle 0x0008#16 .dlyDone).seq :=
  ⟨_, rfl, by decide⟩

theorem witness_RequestsAreEmittedOnlyInTheirSteps :
    ∃ t, step (busyAt .twSettle 0x0008#16 .dlyDone) = .next t ∧ t.request = some (.twRead 0x40#7 3) :=
  ⟨_, rfl, rfl⟩

/-- The table's first line for each of the three commands. -/
theorem witness_OutstandingRequestIsTheOneEmitted_table :
    (busyAt .twWrite 0xE307#16 .complete).seq = .twWrite ∧ opField (busyAt .twWrite 0xE307#16 .complete).cmd = 0x07#8 ∧
    opField (busyAt .twWrite 0x0008#16 .complete).cmd = 0x08#8 ∧ opField (busyAt .twWrite 0x0009#16 .complete).cmd = 0x09#8 := by
  decide

/-- An entry to a waiting state, and a step that stays in one. -/
theorem witness_OutstandingRequestIsTheOneEmitted :
    (∃ t, step (busyAt .twSettle 0x0008#16 .dlyDone) = .next t ∧ t.seq ≠ .twSettle) ∧
    (∃ t, step (busyAt .twSettle 0x0008#16 .complete) = .next t ∧ t.seq = .twSettle ∧ t.seq ≠ .idle) :=
  ⟨⟨_, rfl, by decide⟩, ⟨_, rfl, rfl, by decide⟩⟩

theorem witness_OnlyValidatedFramesBecomeMeasurements :
    Memory.wf (busyAt .twRead 0x0008#16 (.twReadDone .err)).buf ∧
    (∃ t, step (busyAt .twRead 0x0008#16 (.twReadDone .err)) = .next t) ∧
    (∀ e rest, (busyAt .twRead 0x0008#16 (.twReadDone .err)).script = e :: rest → e.rst = false) ∧
    (busyAt .twRead 0x0008#16 (.twReadDone .err)).seq ≠ .idle ∧ (busyAt .twRead 0x0008#16 (.twReadDone .err)).seq ≠ .exec := by
  refine ⟨by decide, ⟨_, rfl⟩, ?_, by decide, by decide⟩
  rintro e rest h
  cases h
  rfl

theorem witness_FaultsWriteNoMeasurement :
    ∃ t, step (busyAt .twRead 0x0008#16 (.twReadDone .err)) = .next t ∧
      (busyAt .twRead 0x0008#16 (.twReadDone .err)).seq ≠ .idle ∧ (busyAt .twRead 0x0008#16 (.twReadDone .err)).err = .none ∧
      t.err ≠ .none :=
  ⟨_, rfl, by decide, rfl, by decide⟩

theorem witness_DoneAndErrStandUntilTheNextCommand :
    (given (.hostWrite 0x02#8 1#32)).seq = .idle ∧ (∃ t, step (given (.hostWrite 0x02#8 1#32)) = .next t) ∧
    (∀ e rest, (given (.hostWrite 0x02#8 1#32)).script = e :: rest → e.rst = false) ∧
    (∀ v, (given (.hostWrite 0x02#8 1#32)).event ≠ some (.hostWrite 0x00#8 v)) := by
  refine ⟨rfl, ⟨_, rfl⟩, ?_, ?_⟩
  · rintro e rest h
    cases h
    rfl
  · simp [given, State.event, own]

/-- The three clauses about a quiet edge: no edge left, an edge without event, and Complete in IDLE and in TW_WRITE. -/
theorem witness_DoneAndErrStandUntilTheNextCommand_quiet :
    State.reset.script = [] ∧
    ({ State.reset with script := [{ rst := false, event := none }] } : State).script = { rst := false, event := none } :: [] ∧
    (given .complete).script = own .complete :: [] ∧ (given .complete).seq ≠ .exec ∧
    (busyAt .twWrite 0x0008#16 .complete).script = own .complete :: [] ∧ (busyAt .twWrite 0x0008#16 .complete).seq ≠ .exec := by
  decide

/-- SEQ leaves IDLE. -/
theorem witness_SeqTakesOnlyItsOrders_accept :
    ∃ t, step (given (.hostWrite 0x00#8 0x0A#32)) = .next t ∧ t.seq ≠ (given (.hostWrite 0x00#8 0x0A#32)).seq :=
  ⟨_, rfl, by decide⟩

theorem witness_NoOperationReadsTheFlags :
    (∀ a, (busyAt .twSettle 0x0008#16 .dlyDone).event ≠ some (.hostRead a)) ∧
    ∃ t, step (busyAt .twSettle 0x0008#16 .dlyDone) = .next t :=
  ⟨fun a => by simp [busyAt, State.event, own], _, rfl⟩

/-- A stray response and a dropped write while TW_WRITE waits. -/
def strays : List Edge := [own .dlyDone, { rst := false, event := none }, own (.hostWrite 0x00#8 1#32), own (.hostRead 0x01#8)]

theorem witness_NoWatchdog :
    ({ busyAt .twWrite 0x0008#16 .complete with script := strays } : State).seq ≠ .idle ∧
    ∀ e ∈ ({ busyAt .twWrite 0x0008#16 .complete with script := strays } : State).script, Edge.idleFor .twWrite e = true := by
  decide

theorem witness_PureCommandRunsToItsResult :
    isPure .crc16 = true ∧ State.reset.seq = .idle ∧ Config.bufMaxLow ≤ State.reset.bufMax ∧
    (∀ e ∈ strays, Edge.idleFor .exec e = true) ∧
    ∃ s : State, s.seq = .idle ∧ s.bufMax = 32 ∧
      s.script = own (.hostWrite 0x00#8 ((encode .crc16).zeroExtend 32)) :: strays ++ own .complete :: [] :=
  ⟨rfl, rfl, by decide, by decide,
    { State.reset with script := own (.hostWrite 0x00#8 ((encode .crc16).zeroExtend 32)) :: strays ++ own .complete :: [] },
    rfl, rfl, rfl⟩

theorem witness_TwoWireTransactionRunsToItsMeasurement :
    isTwoWire .meast = true ∧ rem24 0x62#8 0x4F#8 0x9F#8 = 0#24 ∧ (∀ e ∈ strays, Edge.idleFor .twWrite e = true) ∧
    (∀ e ∈ ([own (.serReadDone .err)] : List Edge), Edge.idleFor .twSettle e = true) ∧
    (∀ e ∈ ([] : List Edge), Edge.idleFor .twRead e = true) ∧
    ∃ s : State, s.seq = .idle ∧ Config.bufMaxLow ≤ s.bufMax ∧
      s.script = own (.hostWrite 0x00#8 ((encode .meast).zeroExtend 32)) :: strays ++ own (.twWriteDone .ok)
        :: [own (.serReadDone .err)] ++ own .dlyDone :: [] ++ own goodRead :: [] :=
  ⟨rfl, by decide +kernel, by decide, by decide, by decide,
    { State.reset with script := own (.hostWrite 0x00#8 ((encode .meast).zeroExtend 32)) :: strays ++ own (.twWriteDone .ok)
        :: [own (.serReadDone .err)] ++ own .dlyDone :: [] ++ own goodRead :: [] },
    rfl, by decide, rfl⟩

theorem witness_SerialTransactionRunsToItsMeasurement :
    isSerial .rdsc = true ∧ 11 ≤ response.length ∧ trailerOk response ∧ (∀ e ∈ strays, Edge.idleFor .serWrite e = true) ∧
    (∀ e ∈ strays, Edge.idleFor .serRead e = true) ∧
    ∃ s : State, s.seq = .idle ∧ Memory.wf s.buf ∧ response.length ≤ s.bufMax ∧
      s.script = own (.hostWrite 0x00#8 ((encode .rdsc).zeroExtend 32)) :: strays ++ own (.serWriteDone .ok) :: strays
        ++ own (.serReadDone (.ok response)) :: [] :=
  ⟨rfl, by decide, by unfold trailerOk; decide +kernel, by decide, by decide,
    { State.reset with script := own (.hostWrite 0x00#8 ((encode .rdsc).zeroExtend 32)) :: strays ++ own (.serWriteDone .ok)
        :: strays ++ own (.serReadDone (.ok response)) :: [] },
    rfl, by decide, by decide, rfl⟩

theorem witness_LdbufLoadsTheBuffer :
    ∃ s : State, s.seq = .idle ∧ Config.bufMaxLow ≤ s.bufMax ∧ s.bufMax ≤ Config.bufMaxHigh ∧ response32.length ≤ s.bufMax ∧
      s.script = (ldbuf response32).map lineEdge ++ [] :=
  ⟨{ State.reset with script := (ldbuf response32).map lineEdge ++ [] }, rfl, by decide, by decide, by decide, rfl⟩

/-- LEN + 2 = BUF_MAX. -/
theorem witness_AppendedChecksumMatches :
    ∃ (s : State) (c : Word16), s.seq = .idle ∧ Memory.wf s.buf ∧ Config.bufMaxLow ≤ s.bufMax ∧ s.bufMax ≤ Config.bufMaxHigh ∧
      s.len.toNat + 2 ≤ s.bufMax ∧ c = crc16 (Memory.readList s.buf 0 s.len.toNat) ∧
      s.script = lineEdge (.command .crc16) :: envEdge .complete :: (appendcrc s.len.toNat c).map lineEdge
        ++ lineEdge (.command .crc16chk) :: envEdge .complete :: [] :=
  ⟨{ State.reset with
      len := 30#8
      script := lineEdge (.command .crc16) :: envEdge .complete
        :: (appendcrc 30 (crc16 (Memory.readList [] 0 30))).map lineEdge
        ++ lineEdge (.command .crc16chk) :: envEdge .complete :: [] },
    crc16 (Memory.readList [] 0 30), rfl, by decide, by decide, by decide, by decide, rfl, rfl⟩

/-- A valid frame and a changed checksum byte. -/
theorem witness_Rem24DetectsEveryChangeOfTheChecksumByte :
    crc8Valid 0x62#8 0x4F#8 0x9F#8 = true ∧ 0x80#8 ≠ 0x00#8 := by
  decide +kernel

theorem witness_Crc16IsZeroIffTheTrailerMatches : 2 ≤ ([0xFF#8, 0xFF#8] : List Byte).length := by decide

end Sys2Proof.Tests
end

section
/-! PROOFS. The state after reset (10_state.md R32): what the host reads from it, and that it awaits no answer. -/

namespace Sys2Proof.Machine

/-- R24's table has no request in IDLE. -/
theorem State.outstanding_of_idle {s : State} (h : s.seq = .idle) : s.outstanding = none := by
  simp [State.outstanding, h]

/-- R32: BUF after reset lists no byte, so each one reads as unlisted. -/
theorem Memory.read_reset_buf (k : Nat) : Memory.read State.reset.buf k = 0#8 :=
  Memory.read_below (m := State.reset.buf) fun _ hc => absurd hc List.not_mem_nil

/-- R20 at R32's values: no flag is set, and SEQ and ERR have the codes 0. -/
theorem State.statWord_reset : State.reset.statWord = 0#32 := by decide

/-- R42 at R32's values, along the map of R41. -/
theorem readIndex_reset (a : Index) : readIndex State.reset a = 0#32 := by
  unfold readIndex
  split
  case h_2 => exact State.statWord_reset -- STAT
  case h_11 => -- a buffer byte, or an index that names nothing
    split
    · next i _ =>
      have hbyte : State.reset.bufByte i = 0#8 := Memory.read_reset_buf i
      rw [hbyte]
      rfl
    · rfl
  all_goals rfl -- a data register

/-- Settles O29: the host's view by `readIndex_reset`, BUF by `Memory.read_reset_buf`. -/
theorem resetStateReadsZero : Obligations.ResetStateReadsZero := by
  have hidle : State.reset.seq = .idle := rfl
  exact ⟨readIndex_reset, hidle, State.outstanding_of_idle hidle, Memory.read_reset_buf⟩

end Sys2Proof.Machine
end

section
/-! PROOFS. The host port (20_memory.md R41 to R45): the map of the indices, a host read, a host write while idle
and while busy. -/

namespace Sys2Proof.Machine

-- Command words and acceptance

/-- R61 to R63: the word of a decoded command is the word that was decoded. -/
theorem encode_of_decode {w : Word16} {i : Instr} (h : decode w = .instr i) : encode i = w := by
  obtain ⟨hnum, himm⟩ := fields_of_decode h
  have hop : opField w = i.opcode := BitVec.eq_of_toNat_eq hnum
  calc encode i = immField w ++ opField w := by rw [himm, hop, encode]
    _ = w := word_of_fields w

/-- R132: the eight bytes of the serial request. -/
theorem txFrame_bytes : txFrame = [0xFE#8, 0x04#8, 0x00#8, 0x00#8, 0x00#8, 0x04#8, 0xE5#8, 0xC6#8] := by decide +kernel

/-- The request of an acceptance, written out (R112, R132). -/
theorem acceptRequest_eq_startRequest (i : Instr) : acceptRequest i = startRequest i := by
  cases i
  case rdsc | rdco2 => exact congrArg (some <| Request.serWrite ·) txFrame_bytes
  all_goals rfl -- a two-wire request or none

/-- R60: acceptance of a legal word while idle. -/
theorem acceptCommand_of_decode {s : State} {w : Word16} {i : Instr} (hs : s.seq = .idle) (hd : decode w = .instr i) :
    acceptCommand w s = .next (s.accept w (startState i) (startRequest i)) := by
  rw [acceptCommand, hd, ← acceptRequest_eq_startRequest, ← encode_of_decode hd]
  exact exec_idle hs i

/-- R60, R155: a word that is no command is reported. -/
theorem acceptCommand_of_illegal {s : State} {w : Word16} (hd : ¬ ∃ i, decode w = .instr i) :
    acceptCommand w s = .next (s.illegal w) := by
  unfold acceptCommand
  split
  · next i hi => exact absurd ⟨i, hi⟩ hd
  · rfl
  · rfl

-- The map of the indices (R41)

theorem bufIndex_of_byte {s : State} {a : Index} {k : Nat} (hk : k < s.bufMax) (ha : a.toNat = 0x80 + k) :
    bufIndex s a = some k := by
  have hsub : a.toNat - 0x80 = k := by omega
  have hin : 0x80 ≤ a.toNat ∧ a.toNat - 0x80 < s.bufMax := by omega
  rw [bufIndex, if_pos hin, hsub]

theorem bufIndex_of_outside {s : State} {a : Index} (h : a.toNat < 0x80 ∨ 0x80 + s.bufMax ≤ a.toNat) :
    bufIndex s a = none :=
  if_neg (by omega)

/-- The index of a buffer byte names no register. -/
theorem index_ne_of_byte {a b : Index} {k : Nat} (ha : a.toNat = 0x80 + k) (hb : b.toNat < 0x80) : a ≠ b := by
  rintro rfl
  omega

/-- An index above the ten registers reads as a byte of BUF or as 0. -/
theorem readIndex_above {s : State} {a : Index} (ha : 0x0A ≤ a.toNat) :
    readIndex s a = (bufIndex s a).elim 0#32 (fun k => (s.bufByte k).zeroExtend 32) := by
  unfold readIndex
  split
  case h_11 => cases bufIndex s a <;> rfl
  all_goals omega -- the index would be a register's

/-- R41, R42: `BUF[k]` is read at `0x80 + k`. -/
theorem readIndex_byte {s : State} {a : Index} {k : Nat} (hk : k < s.bufMax) (ha : a.toNat = 0x80 + k) :
    readIndex s a = (s.bufByte k).zeroExtend 32 := by
  rw [readIndex_above (by omega), bufIndex_of_byte hk ha]
  rfl

/-- R45: an index that names nothing reads 0. -/
theorem readIndex_reserved {s : State} {a : Index} (hreg : 0x0A ≤ a.toNat)
    (h : a.toNat < 0x80 ∨ 0x80 + s.bufMax ≤ a.toNat) : readIndex s a = 0#32 := by
  rw [readIndex_above hreg, bufIndex_of_outside h]
  rfl

theorem writeIndex_len (s : State) (v : Word32) : writeIndex 0x02#8 v s = s.setLen (v.extractLsb' 0 8) := rfl

theorem writeIndex_raw (s : State) (v : Word32) : writeIndex 0x03#8 v s = s.setRaw (v.extractLsb' 0 16) := rfl

/-- A write to an index other than those of LEN and RAW goes to a byte of BUF or nowhere. -/
theorem writeIndex_other {s : State} {a : Index} (v : Word32) (hlen : a ≠ 0x02#8) (hraw : a ≠ 0x03#8) :
    writeIndex a v s = (bufIndex s a).elim s (fun k => s.setBufByte k (v.extractLsb' 0 8)) := by
  unfold writeIndex
  split
  · next h => exact absurd (BitVec.eq_of_toNat_eq h) hlen
  · next h => exact absurd (BitVec.eq_of_toNat_eq h) hraw
  · cases bufIndex s a <;> rfl

/-- R43: `BUF[k]` is written at `0x80 + k`. -/
theorem writeIndex_byte {s : State} {a : Index} {k : Nat} (v : Word32) (hk : k < s.bufMax) (ha : a.toNat = 0x80 + k) :
    writeIndex a v s = s.setBufByte k (v.extractLsb' 0 8) := by
  have hlen : a ≠ 0x02#8 := index_ne_of_byte ha (by decide)
  have hraw : a ≠ 0x03#8 := index_ne_of_byte ha (by decide)
  rw [writeIndex_other v hlen hraw, bufIndex_of_byte hk ha]
  rfl

/-- R43, R45: a write to an index without a writable register has no effect. -/
theorem writeIndex_unwritable {s : State} {a : Index} (v : Word32) (hlen : a ≠ 0x02#8) (hraw : a ≠ 0x03#8)
    (h : a.toNat < 0x80 ∨ 0x80 + s.bufMax ≤ a.toNat) : writeIndex a v s = s := by
  rw [writeIndex_other v hlen hraw, bufIndex_of_outside h]
  rfl

-- The step of a host access

section
variable {s : State} {a : Index} {v : Word32} {rest : List Edge}

theorem step_hostRead (h : s.script = own (.hostRead a) :: rest) :
    step s = .next { s.tick with rdata := some (readIndex s a) } :=
  step_event h

/-- R44. -/
theorem step_hostWrite_busy (h : s.script = own (.hostWrite a v) :: rest) (hs : s.seq ≠ .idle) :
    step s = .next s.tick := by
  have hbusy : s.busy = true := bne_iff_ne.2 hs
  exact (step_event h).trans (if_pos hbusy)

theorem step_hostWrite_idle (h : s.script = own (.hostWrite a v) :: rest) (hs : s.seq = .idle) :
    step s = if a = 0x00#8 then acceptCommand (v.extractLsb' 0 16) s else .next (writeIndex a v s.tick) := by
  have hbusy : ¬ s.busy = true := by simp [State.busy, hs]
  exact (step_event h).trans (if_neg hbusy)

theorem step_hostWrite_cmd (h : s.script = own (.hostWrite 0x00#8 v) :: rest) (hs : s.seq = .idle) :
    step s = acceptCommand (v.extractLsb' 0 16) s :=
  (step_hostWrite_idle h hs).trans (if_pos rfl)

theorem step_hostWrite_register (h : s.script = own (.hostWrite a v) :: rest) (hs : s.seq = .idle) (ha : a ≠ 0x00#8) :
    step s = .next (writeIndex a v s.tick) :=
  (step_hostWrite_idle h hs).trans (if_neg ha)

end

/-- Settles O24: the data is `readIndex`, taken along the map of R41. -/
theorem hostReadReturnsTheRegister : Obligations.HostReadReturnsTheRegister := by
  intro s a rest hscript
  refine ⟨readIndex s a, step_hostRead hscript, ?cmd, ?stat, ?len, ?raw, ?tnum, ?rhnum, ?co2, ?status, ?rem, ?crc16,
    ?reserved, ?byte, ?beyond⟩
  case reserved => exact fun hreg hlow => readIndex_reserved hreg (.inl hlow)
  case byte => exact fun k hk ha => readIndex_byte hk ha
  case beyond => exact fun hhigh => readIndex_reserved (by omega) (.inr hhigh)
  all_goals -- a register's own index
    rintro rfl
    rfl

/-- Settles O25: a write to CMD by `acceptCommand`, a write to any other index by `writeIndex`. -/
theorem hostWriteWhileIdle : Obligations.HostWriteWhileIdle := by
  intro s a v rest hscript hs
  refine ⟨?cmd, ?len, ?raw, ?byte, ?unwritable⟩
  case cmd =>
    rintro rfl
    rw [step_hostWrite_cmd hscript hs]
    exact ⟨fun i hd => acceptCommand_of_decode hs hd, acceptCommand_of_illegal⟩
  case len =>
    rintro rfl
    rw [step_hostWrite_register hscript hs (by decide), writeIndex_len]
    rfl
  case raw =>
    rintro rfl
    rw [step_hostWrite_register hscript hs (by decide), writeIndex_raw]
    rfl
  case byte =>
    intro k hk ha
    have hcmd : a ≠ 0x00#8 := index_ne_of_byte ha (by decide)
    rw [step_hostWrite_register hscript hs hcmd, writeIndex_byte v (s := s.tick) hk ha]
    rfl
  case unwritable =>
    intro hcmd hlen hraw hout
    rw [step_hostWrite_register hscript hs hcmd, writeIndex_unwritable v (s := s.tick) hlen hraw hout]

/-- Settles O26: `step_hostWrite_busy`, at every index and datum. -/
theorem hostWriteWhileBusyIsDropped : Obligations.HostWriteWhileBusyIsDropped :=
  fun _ _ _ _ hscript hs => step_hostWrite_busy hscript hs

end Sys2Proof.Machine
end

section
/-! PROOFS. The command words (30_encoding.md R60 to R64): which words are commands, by row and by fields, how many
they are, and what the acceptance of each does. -/

namespace Sys2Proof.Machine

-- The decoder inverts the encoder

/-- R61 to R63: the word of a command decodes to it. -/
theorem decode_encode (i : Instr) : decode (encode i) = .instr i := by
  cases i
  case meas imm =>
    calc decode (encode (.meas imm)) = .instr (.meas (immField (encode (.meas imm)))) := by
          rw [decode, opField_encode]; rfl
      _ = .instr (.meas imm) := by rw [immField_encode]; rfl
  all_goals rfl -- format N: one word

theorem decode_eq_instr_iff {w : Word16} {i : Instr} : decode w = .instr i ↔ w = encode i := by
  refine ⟨fun h => (encode_of_decode h).symm, ?_⟩
  rintro rfl
  exact decode_encode i

theorem decode_eq_instr_iff_fields {w : Word16} {i : Instr} :
    decode w = .instr i ↔ opField w = i.opcode ∧ immField w = i.immediate := by
  rw [decode_eq_instr_iff]
  constructor
  · rintro rfl
    exact ⟨opField_encode i, immField_encode i⟩
  · rintro ⟨hop, himm⟩
    rw [encode, ← hop, ← himm, word_of_fields]

theorem encode_injective : Function.Injective encode := by
  intro i j h
  have hij : Decoded.instr i = .instr j := by rw [← decode_encode i, h, decode_encode j]
  exact Decoded.instr.inj hij

-- Match and mask (R63)

/-- A row with a full mask has one word. -/
theorem decode_iff_match_fullMask {w m : Word16} {i : Instr} (hm : encode i = m) :
    decode w = .instr i ↔ w &&& 0xFFFF#16 = m := by
  have hmask : w &&& 0xFFFF#16 = w := BitVec.and_allOnes
  rw [hmask, decode_eq_instr_iff, hm]

/-- The mask 0x00FF keeps CMD.OP. -/
theorem and_opMask (w : Word16) : w &&& 0x00FF#16 = 0x00#8 ++ opField w := by
  have hfields : (immField w ++ opField w) &&& (0x00#8 ++ 0xFF#8) = 0x00#8 ++ opField w := by
    rw [BitVec.and_append, BitVec.and_zero]
    exact congrArg _ BitVec.and_allOnes
  rwa [word_of_fields] at hfields

/-- MEAS is the opcode 0x07, with any immediate. -/
theorem decode_meas_iff_opField {w : Word16} : (∃ imm, decode w = .instr (.meas imm)) ↔ opField w = 0x07#8 := by
  simp only [decode_eq_instr_iff_fields]
  exact ⟨fun ⟨_, hop, _⟩ => hop, fun hop => ⟨immField w, hop, rfl⟩⟩

theorem decode_meas_iff_match {w : Word16} :
    (∃ imm, decode w = .instr (.meas imm)) ↔ w &&& 0x00FF#16 = 0x0007#16 := by
  rw [decode_meas_iff_opField, and_opMask]
  exact ⟨fun h => by rw [h]; rfl, fun h => (BitVec.append_right_inj _).1 h⟩

/-- Settles O3: a full mask by `decode_iff_match_fullMask`, MEAS's by `decode_meas_iff_match`. -/
theorem opcodeMapByMatchAndMask : Obligations.OpcodeMapByMatchAndMask := by
  intro w
  refine ⟨?_, ?_, ?_, ?_, ?_, ?_, decode_meas_iff_match, ?_, ?_, ?_, ?_⟩
  all_goals exact decode_iff_match_fullMask rfl

-- Legal words (R64)

theorem legal_iff {op imm : Byte} :
    legal op imm = true ↔
      op = 0x07#8 ∨ (((0x01#8 ≤ op ∧ op ≤ 0x06#8) ∨ (0x08#8 ≤ op ∧ op ≤ 0x0B#8)) ∧ imm = 0x00#8) := by
  simp [legal, isFormatN]

/-- The commands of format N (R61), in the order of their opcodes. -/
def formatNCommand : Fin 10 → Instr :=
  ![.crc8chk, .crc16, .crc16chk, .convt, .convrh, .convco2, .meast, .measrh, .rdsc, .rdco2]

theorem formatNCommand_immediate (k : Fin 10) : (formatNCommand k).immediate = 0x00#8 := by
  revert k; decide

theorem formatNCommand_injective : Function.Injective formatNCommand := by decide

/-- Every opcode of format N has its row. -/
theorem exists_formatNCommand_opcode {op : Byte} (h : isFormatN op = true) : ∃ k, (formatNCommand k).opcode = op := by
  revert op; decide

theorem legal_of_command (i : Instr) : legal i.opcode i.immediate = true := by
  cases i <;> rfl

theorem exists_command_of_legal {op imm : Byte} (h : legal op imm = true) :
    ∃ i : Instr, op = i.opcode ∧ imm = i.immediate := by
  simp only [legal, Bool.or_eq_true, Bool.and_eq_true, beq_iff_eq] at h
  obtain rfl | ⟨hN, rfl⟩ := h
  · exact ⟨.meas imm, rfl, rfl⟩
  · obtain ⟨k, hk⟩ := exists_formatNCommand_opcode hN
    exact ⟨formatNCommand k, hk.symm, (formatNCommand_immediate k).symm⟩

/-- R64: the words that decode are the legal ones. -/
theorem exists_decode_iff_legal {w : Word16} : (∃ i, decode w = .instr i) ↔ legal (opField w) (immField w) = true := by
  simp only [decode_eq_instr_iff_fields]
  constructor
  · rintro ⟨i, hop, himm⟩
    rw [hop, himm]
    exact legal_of_command i
  · exact exists_command_of_legal

-- The number of commands (R64: 256 + 10)

/-- MEAS with each immediate, and the commands of format N. -/
def commandOfForm : Byte ⊕ Fin 10 → Instr := Sum.elim .meas formatNCommand

theorem commandOfForm_bijective : Function.Bijective commandOfForm := by
  constructor
  · have hne : ∀ imm k, Instr.meas imm ≠ formatNCommand k := by
      intro imm k
      fin_cases k <;> exact Instr.noConfusion
    exact Function.Injective.sumElim (fun _ _ h => Instr.meas.inj h) formatNCommand_injective hne
  · intro i
    cases i
    case meas imm => exact ⟨.inl imm, rfl⟩
    case crc8chk => exact ⟨.inr 0, rfl⟩
    case crc16 => exact ⟨.inr 1, rfl⟩
    case crc16chk => exact ⟨.inr 2, rfl⟩
    case convt => exact ⟨.inr 3, rfl⟩
    case convrh => exact ⟨.inr 4, rfl⟩
    case convco2 => exact ⟨.inr 5, rfl⟩
    case meast => exact ⟨.inr 6, rfl⟩
    case measrh => exact ⟨.inr 7, rfl⟩
    case rdsc => exact ⟨.inr 8, rfl⟩
    case rdco2 => exact ⟨.inr 9, rfl⟩

theorem card_instr : Nat.card Instr = 266 := by
  rw [← Nat.card_eq_of_bijective _ commandOfForm_bijective, Nat.card_sum, Nat.card_eq_fintype_card,
    Nat.card_eq_fintype_card, ← FinEnum.card_eq_fintypeCard]
  rfl

/-- The word of a command, as one of the words that decode. -/
def commandWord (i : Instr) : { w : Word16 // ∃ i, decode w = .instr i } := ⟨encode i, i, decode_encode i⟩

theorem commandWord_bijective : Function.Bijective commandWord := by
  constructor
  · exact fun _ _ h => encode_injective (Subtype.ext_iff.1 h)
  · rintro ⟨w, i, h⟩
    exact ⟨i, Subtype.ext (encode_of_decode h)⟩

-- The step of a write to CMD (R60)

section
variable {s : State} {v : Word32} {rest : List Edge} {i : Instr}

theorem step_illegalWord (h : s.script = own (.hostWrite 0x00#8 v) :: rest) (hs : s.seq = .idle)
    (hd : ¬ ∃ i, decode (v.extractLsb' 0 16) = .instr i) : step s = .next (s.illegal (v.extractLsb' 0 16)) :=
  (step_hostWrite_cmd h hs).trans (acceptCommand_of_illegal hd)

/-- A legal word is some command's, which is accepted. -/
theorem step_legalWord (h : s.script = own (.hostWrite 0x00#8 v) :: rest) (hs : s.seq = .idle)
    (hl : legal (opField (v.extractLsb' 0 16)) (immField (v.extractLsb' 0 16)) = true) :
    ∃ i : Instr, opField (v.extractLsb' 0 16) = i.opcode ∧ immField (v.extractLsb' 0 16) = i.immediate ∧
      step s = .next (s.accept (v.extractLsb' 0 16) (startState i) (startRequest i)) := by
  obtain ⟨i, hd⟩ := exists_decode_iff_legal.2 hl
  obtain ⟨hop, himm⟩ := decode_eq_instr_iff_fields.1 hd
  exact ⟨i, hop, himm, (step_hostWrite_cmd h hs).trans (acceptCommand_of_decode hs hd)⟩

/-- R60: the opcodes 0x01 to 0x06 start in EXEC. -/
theorem start_of_pureOpcode (h : i.opcode ≤ 0x06#8) : startState i = .exec ∧ startRequest i = none := by
  cases i
  case crc8chk | crc16 | crc16chk | convt | convrh | convco2 => exact ⟨rfl, rfl⟩
  all_goals simp [Instr.opcode] at h

/-- R112: the opcodes 0x07 to 0x09 start in TW_WRITE and send their command byte. -/
theorem start_of_twoWireOpcode (hlow : 0x07#8 ≤ i.opcode) (hhigh : i.opcode ≤ 0x09#8) :
    startState i = .twWrite ∧
      startRequest i = some (.twWrite 0x40#7
        (if i.opcode = 0x07#8 then i.immediate else if i.opcode = 0x08#8 then Config.cmdTemp else Config.cmdHum) []) := by
  cases i
  case meas | meast | measrh => exact ⟨rfl, rfl⟩
  case rdsc | rdco2 => simp [Instr.opcode] at hhigh
  all_goals simp [Instr.opcode] at hlow

/-- R132: the opcodes 0x0A and 0x0B start in SER_WRITE and send the request frame. -/
theorem start_of_serialOpcode (h : 0x0A#8 ≤ i.opcode) :
    startState i = .serWrite ∧
      startRequest i =
        some (.serWrite [0xFE#8, 0x04#8, 0x00#8, 0x00#8, 0x00#8, 0x04#8, 0xE5#8, 0xC6#8]) := by
  cases i
  case rdsc | rdco2 => exact ⟨rfl, rfl⟩
  all_goals simp [Instr.opcode] at h

end

/-- Settles O2: the fields by `exists_decode_iff_legal`, the count by `commandWord_bijective`, an illegal word by
`step_illegalWord`. -/
theorem legalWordsAndIllegalWords : Obligations.LegalWordsAndIllegalWords := by
  refine ⟨fun _ => exists_decode_iff_legal.trans legal_iff, ?card, ?illegal⟩
  case card => rw [← Nat.card_eq_of_bijective _ commandWord_bijective, card_instr]
  case illegal => exact fun _ _ _ hs hscript hd => step_illegalWord hscript hs hd

/-- Settles O6: a legal word is accepted by `step_legalWord`, and the range of its opcode says where its command
starts. -/
theorem commandAcceptance : Obligations.CommandAcceptance := by
  intro s v rest hscript w op imm
  have haccept (hs : s.seq = .idle) (hl : legal op imm = true) : ∃ i : Instr, op = i.opcode ∧ imm = i.immediate ∧
      step s = .next (s.accept w (startState i) (startRequest i)) := step_legalWord hscript hs hl
  refine ⟨step_hostWrite_busy hscript, ?illegal, ?pure, ?twoWire, ?serial⟩
  case illegal =>
    intro hs hl
    exact step_illegalWord hscript hs fun hd => Bool.false_ne_true (hl.symm.trans (exists_decode_iff_legal.1 hd))
  case pure =>
    intro hs hl hrange
    obtain ⟨i, hop, -, hstep⟩ := haccept hs hl
    obtain ⟨hstate, hrequest⟩ := start_of_pureOpcode (hop ▸ hrange)
    rw [hstep, hstate, hrequest]
    rfl
  case twoWire =>
    intro hs hl hlow hhigh
    obtain ⟨i, hop, himm, hstep⟩ := haccept hs hl
    obtain ⟨hstate, hrequest⟩ := start_of_twoWireOpcode (hop ▸ hlow) (hop ▸ hhigh)
    rw [hstep, hstate, hrequest, ← hop, ← himm]
    rfl
  case serial =>
    intro hs hl hrange
    obtain ⟨i, hop, -, hstep⟩ := haccept hs hl
    obtain ⟨hstate, hrequest⟩ := start_of_serialOpcode (hop ▸ hrange)
    rw [hstep, hstate, hrequest]
    rfl

end Sys2Proof.Machine
end

section
/-! PROOFS. The checksum commands (40_checksum.md R82, R86, R87): what each Complete step answers on a length it accepts
and on any other. -/

namespace Sys2Proof.Machine

-- The step of a pure command that answers its Complete event

section
variable {s : State}

theorem exec_complete {i : Instr} (hi : isPure i = true) (hs : s.seq = .exec) (he : s.event = some .complete) :
    exec i s = completeOf i s.tick :=
  (exec_pure hi s).trans (pureOp_complete hs he i _)

-- The Complete steps, by the length in LEN

/-- R82: the three bytes lie inside BUF, so the guard goes on. -/
theorem completeCrc8chk_of_len (hlen : s.len = 3#8) (hbuf : 3 ≤ s.bufMax) :
    completeCrc8chk s = .next (s.setRem (rem24 (s.bufByte 0) (s.bufByte 1) (s.bufByte 2))).finish :=
  have haccepted : ¬ s.len ≠ 3#8 := not_not_intro hlen
  (if_neg haccepted).trans (guardBuf_inside hbuf _)

theorem completeCrc8chk_of_operandRange (hlen : s.len ≠ 3#8) : completeCrc8chk s = .next (s.raise .operandRange) :=
  if_pos hlen

theorem completeCrc16_of_len (hlen : s.len.toNat ≤ s.bufMax) :
    completeCrc16 s = .next (s.setCrc16 (crc16 (s.memRead 0 s.len.toNat))).finish :=
  if_neg (Nat.not_lt.2 hlen)

theorem completeCrc16_of_operandRange (hlen : s.bufMax < s.len.toNat) :
    completeCrc16 s = .next (s.raise .operandRange) :=
  if_pos hlen

theorem completeCrc16chk_of_len (hlow : 2 ≤ s.len.toNat) (hhigh : s.len.toNat ≤ s.bufMax) :
    completeCrc16chk s =
      .next ((s.setCrc16 (crc16 (s.memRead 0 (s.len.toNat - 2)))).setMatched
        (s.trailerMatches s.len.toNat (crc16 (s.memRead 0 (s.len.toNat - 2))))).finish :=
  have haccepted : ¬ (s.len.toNat < 2 ∨ s.bufMax < s.len.toNat) := by omega
  if_neg haccepted

theorem completeCrc16chk_of_operandRange (hlen : s.len.toNat < 2 ∨ s.bufMax < s.len.toNat) :
    completeCrc16chk s = .next (s.raise .operandRange) :=
  if_pos hlen

end

/-- Settles O8: `completeCrc8chk_of_len` where LEN is 3, else `completeCrc8chk_of_operandRange`. -/
theorem crc8chkCompletes : Obligations.Crc8chkCompletes := by
  refine ⟨rfl, fun s hs he hbuf => ?_⟩
  rw [exec_complete rfl hs he]
  split
  · next hlen =>
    have hinside : 3 ≤ s.bufMax := le_trans (by decide) hbuf
    exact completeCrc8chk_of_len (s := s.tick) hlen hinside
  · next hlen => exact completeCrc8chk_of_operandRange (s := s.tick) hlen

/-- Settles O9: `completeCrc16_of_len` where LEN is at most BUF_MAX, else `completeCrc16_of_operandRange`. -/
theorem crc16Completes : Obligations.Crc16Completes := by
  refine ⟨rfl, fun s hs he => ?_⟩
  rw [exec_complete rfl hs he]
  split
  · next hlen => exact completeCrc16_of_len (s := s.tick) hlen
  · next hlen => exact completeCrc16_of_operandRange (s := s.tick) (Nat.not_le.1 hlen)

/-- Settles O10: `completeCrc16chk_of_len` where LEN is from 2 to BUF_MAX, else `completeCrc16chk_of_operandRange`. -/
theorem crc16chkCompletes : Obligations.Crc16chkCompletes := by
  refine ⟨rfl, fun s hs he => ?_⟩
  rw [exec_complete rfl hs he]
  split
  · next hlen =>
    obtain ⟨hlow, hhigh⟩ := hlen
    exact completeCrc16chk_of_len (s := s.tick) hlow hhigh
  · next hlen =>
    have hrange : s.len.toNat < 2 ∨ s.bufMax < s.len.toNat := by omega
    exact completeCrc16chk_of_operandRange (s := s.tick) hrange

end Sys2Proof.Machine
end

section
/-! PROOFS. The converters (41_convert.md R104, R105, R106): the range of each formula on a 16-bit word, and what each
Complete step answers. -/

namespace Sys2Proof.Machine

-- R103: on a 16-bit word each formula fits 32 bits signed

theorem convT_range (raw : Word16) : -307036160 ≤ convT raw.toNat ∧ convT raw.toNat ≤ 844544860 := by
  have hraw : raw.toNat < 65536 := raw.isLt
  unfold convT
  omega

theorem convRh_range (raw : Word16) : -393216 ≤ convRh raw.toNat ∧ convRh raw.toNat ≤ 7798659 := by
  have hraw : raw.toNat < 65536 := raw.isLt
  unfold convRh
  omega

/-- R104: the narrowing at the store loses nothing. -/
theorem toInt_storeTemperature (s : State) (raw : Word16) : (s.storeTemperature raw).tnum.toInt = convT raw.toNat := by
  obtain ⟨hlow, hhigh⟩ := convT_range raw
  exact BitVec.toInt_ofInt_eq_self (by decide) (by omega) (by omega)

/-- R105: the narrowing at the store loses nothing. -/
theorem toInt_storeHumidity (s : State) (raw : Word16) : (s.storeHumidity raw).rhnum.toInt = convRh raw.toNat := by
  obtain ⟨hlow, hhigh⟩ := convRh_range raw
  exact BitVec.toInt_ofInt_eq_self (by decide) (by omega) (by omega)

/-- Settles O11: the Complete step stores TNUM and finishes, and the store keeps the value of the formula
(`toInt_storeTemperature`). -/
theorem convtCompletes : Obligations.ConvtCompletes := by
  refine ⟨rfl, fun s hs he => ⟨(s.tick.storeTemperature s.raw).tnum, ?step, ?value⟩⟩
  case step => exact exec_complete (i := .convt) rfl hs he
  case value => exact toInt_storeTemperature s.tick s.raw

/-- Settles O12: the Complete step stores RHNUM and finishes, and the store keeps the value of the formula
(`toInt_storeHumidity`). -/
theorem convrhCompletes : Obligations.ConvrhCompletes := by
  refine ⟨rfl, fun s hs he => ⟨(s.tick.storeHumidity s.raw).rhnum, ?step, ?value⟩⟩
  case step => exact exec_complete (i := .convrh) rfl hs he
  case value => exact toInt_storeHumidity s.tick s.raw

/-- Settles O13: the Complete step stores RAW in CO2 and finishes. -/
theorem convco2Completes : Obligations.Convco2Completes :=
  ⟨rfl, fun _ hs he => exec_complete (i := .convco2) rfl hs he⟩

end Sys2Proof.Machine
end

section
/-! PROOFS. The two-wire sequencer (42_twowire_sequencer.md R113, R114, R115): what each awaited response answers, and the
three outcomes of the read. -/

namespace Sys2Proof.Machine

section
variable {s : State} {i : Instr}

-- The step of a two-wire command that answers an awaited response

theorem exec_twWriteDone {r : Ack} (hi : isTwoWire i = true) (hs : s.seq = .twWrite)
    (he : s.event = some (.twWriteDone r)) : exec i s = .next (onTwWriteDone r s.tick) :=
  (exec_twoWire hi s).trans (twoWireOp_writeDone hs he i _ _)

theorem exec_dlyDone (hi : isTwoWire i = true) (hs : s.seq = .twSettle) (he : s.event = some .dlyDone) :
    exec i s = .next (onDlyDone s.tick) :=
  (exec_twoWire hi s).trans (twoWireOp_dlyDone hs he i _ _)

theorem exec_twReadDone {r : TwReadResult} (hi : isTwoWire i = true) (hs : s.seq = .twRead)
    (he : s.event = some (.twReadDone r)) : exec i s = onTwReadDone (convertOf i) r s.tick :=
  (exec_twoWire hi s).trans (twoWireOp_readDone hs he i _ _)

-- The read answered with three bytes, by the check on them (R115)

variable {b0 b1 b2 : Byte} {convert : State → Word16 → State}

/-- The three bytes lie inside BUF, so the guard goes on to the check. -/
theorem onTwReadDone_of_invalid (hbuf : 3 ≤ s.bufMax) (hr : rem24 b0 b1 b2 ≠ 0#24) :
    onTwReadDone convert (.ok b0 b1 b2) s = .next ((s.storeTwFrame b0 b1 b2).raise .checksumError) :=
  (guardBuf_inside hbuf _).trans (if_pos hr)

/-- The conversion is handed the masked word, after the check on the bytes as received. -/
theorem onTwReadDone_of_valid (hbuf : 3 ≤ s.bufMax) (hr : rem24 b0 b1 b2 = 0#24) :
    onTwReadDone convert (.ok b0 b1 b2) s =
      .next (convert ((s.storeTwFrame b0 b1 b2).setRaw (cleanedRaw b0 b1)) (cleanedRaw b0 b1)).finish :=
  (guardBuf_inside hbuf _).trans (if_neg (not_not_intro hr))

/-- A valid frame ends the command with its own conversion. -/
theorem exec_twReadDone_of_valid (hi : isTwoWire i = true) (hs : s.seq = .twRead)
    (he : s.event = some (.twReadDone (.ok b0 b1 b2))) (hbuf : Config.bufMaxLow ≤ s.bufMax)
    (hr : rem24 b0 b1 b2 = 0#24) :
    exec i s = .next (convertOf i ((s.tick.storeTwFrame b0 b1 b2).setRaw (cleanedRaw b0 b1)) (cleanedRaw b0 b1)).finish :=
  have hinside : 3 ≤ s.bufMax := le_trans (by decide) hbuf
  (exec_twReadDone hi hs he).trans (onTwReadDone_of_valid (s := s.tick) hinside hr)

/-- A frame that fails the check is stored and reported, whatever the command. -/
theorem exec_twReadDone_of_invalid (hi : isTwoWire i = true) (hs : s.seq = .twRead)
    (he : s.event = some (.twReadDone (.ok b0 b1 b2))) (hbuf : Config.bufMaxLow ≤ s.bufMax)
    (hr : rem24 b0 b1 b2 ≠ 0#24) :
    exec i s = .next ((s.tick.storeTwFrame b0 b1 b2).raise .checksumError) :=
  have hinside : 3 ≤ s.bufMax := le_trans (by decide) hbuf
  (exec_twReadDone hi hs he).trans (onTwReadDone_of_invalid (s := s.tick) hinside hr)

end

/-- Settles O18: a valid frame by `exec_twReadDone_of_valid`, where the stored numbers keep the values of their formulas
(`toInt_storeTemperature`, `toInt_storeHumidity`); a frame that fails the check by `exec_twReadDone_of_invalid`. The
statement's records are the model's updates (`storeTwFrame`, `cleanedRaw`, `finish`, `raise`) written out. -/
theorem twReadDoneValidatesThenExtracts : Obligations.TwReadDoneValidatesThenExtracts := by
  refine ⟨fun s b0 b1 b2 imm hs he hbuf hr => ?valid, fun i s hi hs => ⟨fun b0 b1 b2 he hbuf hr => ?bad, fun he => ?err⟩⟩
  case valid =>
    refine ⟨?meas, ⟨(s.storeTemperature (cleanedRaw b0 b1)).tnum, ?meast, ?temperature⟩,
      ⟨(s.storeHumidity (cleanedRaw b0 b1)).rhnum, ?measrh, ?humidity⟩⟩
    case meas => exact exec_twReadDone_of_valid (i := .meas imm) rfl hs he hbuf hr
    case meast => exact exec_twReadDone_of_valid (i := .meast) rfl hs he hbuf hr
    case temperature => exact toInt_storeTemperature s (cleanedRaw b0 b1)
    case measrh => exact exec_twReadDone_of_valid (i := .measrh) rfl hs he hbuf hr
    case humidity => exact toInt_storeHumidity s (cleanedRaw b0 b1)
  case bad => exact exec_twReadDone_of_invalid hi hs he hbuf hr
  case err => exact exec_twReadDone hi hs he

/-- Settles O16: `exec_twWriteDone` on each of the two answers. -/
theorem twWriteDoneStartsTheSettleDelay : Obligations.TwWriteDoneStartsTheSettleDelay :=
  fun _ _ hi hs => ⟨fun hok => exec_twWriteDone hi hs hok, fun herr => exec_twWriteDone hi hs herr⟩

/-- Settles O17: the step is `onDlyDone`, which emits the read and enters TW_READ. -/
theorem dlyDoneStartsTheRead : Obligations.DlyDoneStartsTheRead :=
  fun _ _ hi hs he => exec_dlyDone hi hs he

end Sys2Proof.Machine
end

section
/-! PROOFS. The serial framer (43_serial_framer.md R133, R134, R137): what each awaited response answers, and the outcomes
of the read: a bad length, a wrong trailer, a valid frame. -/

namespace Sys2Proof.Machine

/-- The last two bytes of a list that has them. -/
theorem drop_length_sub_two {bytes : List Byte} (h2 : 2 ≤ bytes.length) :
    bytes.drop (bytes.length - 2) = [bytes[bytes.length - 2], bytes[bytes.length - 1]] := by
  have hnext : bytes.length - 2 + 1 = bytes.length - 1 := by omega
  have hend : bytes.length - 1 + 1 = bytes.length := by omega
  rw [List.drop_eq_getElem_cons (by omega), hnext, List.drop_eq_getElem_cons (by omega), hend, List.drop_length]

/-- What the checksum step of R134 leaves of a response before it raises or extracts (`judgeSerFrame_of_trailerOk`,
`judgeSerFrame_of_not_trailerOk`). -/
def State.checkSerFrame (s : State) (bytes : List Byte) (matched : Bool) : State :=
  { withSerFrame s bytes with crc16 := Machine.crc16 (bytes.take (bytes.length - 2)), matched := matched }

section
variable {s : State} {i : Instr} {extract : State → State} {bytes : List Byte}

-- The step of a serial command that answers an awaited response

theorem exec_serWriteDone {r : Ack} (hi : isSerial i = true) (hs : s.seq = .serWrite)
    (he : s.event = some (.serWriteDone r)) : exec i s = .next (onSerWriteDone r s.tick) :=
  (exec_serial hi s).trans (serialOp_writeDone hs he i _)

theorem exec_serReadDone {r : SerReadResult} (hi : isSerial i = true) (hs : s.seq = .serRead)
    (he : s.event = some (.serReadDone r)) : exec i s = .next (onSerReadDone (extractOf i) r s.tick) :=
  (exec_serial hi s).trans (serialOp_readDone hs he i _)

-- The length guard (R137)

theorem onSerReadDone_of_badLength (hn : bytes.length < 11 ∨ s.bufMax < bytes.length) :
    onSerReadDone extract (.ok bytes) s = (s.storeSerFrame bytes).raise .malformedFrame :=
  if_pos hn

theorem onSerReadDone_of_length (h11 : 11 ≤ bytes.length) (hmax : bytes.length ≤ s.bufMax) :
    onSerReadDone extract (.ok bytes) s = judgeSerFrame extract bytes.length (s.storeSerFrame bytes) :=
  have haccepted : ¬ (bytes.length < 11 ∨ s.bufMax < bytes.length) := by omega
  if_neg haccepted

-- The check on the stored frame (R134), in terms of the received bytes

/-- A response that fits BUF is compared as it was received. -/
theorem storeSerFrame_trailerMatches (hm : Memory.wf s.buf) (h2 : 2 ≤ bytes.length) (hmax : bytes.length ≤ s.bufMax) :
    (s.storeSerFrame bytes).trailerMatches bytes.length (crc16 (bytes.take (bytes.length - 2))) = true ↔
      trailerOk bytes := by
  rw [State.trailerMatches, storeSerFrame_read hm hmax (by omega), storeSerFrame_read hm hmax (by omega), trailerOk,
    drop_length_sub_two h2]
  simp [lo8, hi8]

theorem judgeSerFrame_of_trailerOk (hm : Memory.wf s.buf) (h2 : 2 ≤ bytes.length) (hmax : bytes.length ≤ s.bufMax)
    (ht : trailerOk bytes) :
    judgeSerFrame extract bytes.length (s.storeSerFrame bytes) =
      ((extract (s.checkSerFrame bytes true)).storeCo2 (s.checkSerFrame bytes true).frameCo2).finish := by
  have hmatch := (storeSerFrame_trailerMatches hm h2 hmax).2 ht
  rw [judgeSerFrame, storeSerFrame_memRead hm hmax (Nat.sub_le _ _), hmatch]
  exact if_pos rfl

theorem judgeSerFrame_of_not_trailerOk (hm : Memory.wf s.buf) (h2 : 2 ≤ bytes.length) (hmax : bytes.length ≤ s.bufMax)
    (ht : ¬ trailerOk bytes) :
    judgeSerFrame extract bytes.length (s.storeSerFrame bytes) = (s.checkSerFrame bytes false).raise .checksumError := by
  have hmatch := Bool.eq_false_iff.2 (mt (storeSerFrame_trailerMatches hm h2 hmax).1 ht)
  rw [judgeSerFrame, storeSerFrame_memRead hm hmax (Nat.sub_le _ _), hmatch]
  exact if_neg Bool.false_ne_true

-- The fields of a frame that fits BUF (R70)

theorem checkSerFrame_bufByte (hm : Memory.wf s.buf) (hmax : bytes.length ≤ s.bufMax) (b : Bool) {j : Nat}
    (hj : j < bytes.length) : (s.checkSerFrame bytes b).bufByte j = bytes[j] :=
  storeSerFrame_read hm hmax hj

theorem checkSerFrame_frameCo2 (hm : Memory.wf s.buf) (h11 : 11 ≤ bytes.length) (hmax : bytes.length ≤ s.bufMax)
    (b : Bool) : (s.checkSerFrame bytes b).frameCo2 = bytes[9] ++ bytes[10] :=
  have hhigh : 9 < bytes.length := by omega
  have hlow : 10 < bytes.length := by omega
  congrArg₂ be16 (checkSerFrame_bufByte hm hmax b hhigh) (checkSerFrame_bufByte hm hmax b hlow)

-- The read answered with bytes, for both commands

theorem exec_serReadDone_of_badLength (hi : isSerial i = true) (hs : s.seq = .serRead)
    (he : s.event = some (.serReadDone (.ok bytes))) (hn : bytes.length < 11 ∨ s.bufMax < bytes.length) :
    exec i s = .next ((s.tick.storeSerFrame bytes).raise .malformedFrame) :=
  (exec_serReadDone hi hs he).trans (congrArg _ (onSerReadDone_of_badLength (s := s.tick) hn))

theorem exec_serReadDone_of_badTrailer (hi : isSerial i = true) (hs : s.seq = .serRead)
    (he : s.event = some (.serReadDone (.ok bytes))) (hm : Memory.wf s.buf) (h11 : 11 ≤ bytes.length)
    (hmax : bytes.length ≤ s.bufMax) (ht : ¬ trailerOk bytes) :
    exec i s = .next ((s.tick.checkSerFrame bytes false).raise .checksumError) := by
  rw [exec_serReadDone hi hs he, onSerReadDone_of_length (s := s.tick) h11 hmax,
    judgeSerFrame_of_not_trailerOk (s := s.tick) hm (by omega) hmax ht]

/-- A valid frame ends the command with its own use of the status byte, and with CO2 from the received bytes. -/
theorem exec_serReadDone_of_valid (hi : isSerial i = true) (hs : s.seq = .serRead)
    (he : s.event = some (.serReadDone (.ok bytes))) (hm : Memory.wf s.buf) (h11 : 11 ≤ bytes.length)
    (hmax : bytes.length ≤ s.bufMax) (ht : trailerOk bytes) :
    exec i s = .next ((extractOf i (s.tick.checkSerFrame bytes true)).storeCo2 (bytes[9] ++ bytes[10])).finish := by
  rw [exec_serReadDone hi hs he, onSerReadDone_of_length (s := s.tick) h11 hmax,
    judgeSerFrame_of_trailerOk (s := s.tick) hm (by omega) hmax ht, checkSerFrame_frameCo2 (s := s.tick) hm h11 hmax]

/-- RDSC's status byte is the received one. -/
theorem extractOf_rdsc_checkSerFrame (hm : Memory.wf s.buf) (h11 : 11 ≤ bytes.length) (hmax : bytes.length ≤ s.bufMax)
    (b : Bool) : extractOf .rdsc (s.checkSerFrame bytes b) = (s.checkSerFrame bytes b).setStatus bytes[3] :=
  have hstatus : 3 < bytes.length := by omega
  congrArg (s.checkSerFrame bytes b).setStatus (checkSerFrame_bufByte hm hmax b hstatus)

end

/-- Settles O22: `exec_serReadDone_of_valid` with the status byte of `extractOf_rdsc_checkSerFrame` for RDSC, and one lemma
for each way the response is refused. The statement's records are the model's updates (`storeSerFrame`, `checkSerFrame`,
`raise`, `finish`) written out. -/
theorem serReadDoneGuardsValidatesThenExtracts : Obligations.SerReadDoneGuardsValidatesThenExtracts := by
  refine ⟨fun s bytes h11 hs he hm hmax ht => ⟨?rdsc, ?rdco2⟩, fun i s hi hs hm =>
    ⟨fun bytes he hn => ?length, fun bytes he h11 hmax ht => ?trailer, fun he => ?err⟩⟩
  case rdsc =>
    rw [exec_serReadDone_of_valid (i := .rdsc) rfl hs he hm h11 hmax ht,
      extractOf_rdsc_checkSerFrame (s := s.tick) hm h11 hmax]
    rfl
  case rdco2 => exact exec_serReadDone_of_valid (i := .rdco2) rfl hs he hm h11 hmax ht
  case length => exact exec_serReadDone_of_badLength hi hs he hn
  case trailer => exact exec_serReadDone_of_badTrailer hi hs he hm h11 hmax ht
  case err => exact exec_serReadDone hi hs he

/-- Settles O21: `exec_serWriteDone` on each of the two answers. -/
theorem serWriteDoneStartsTheRead : Obligations.SerWriteDoneStartsTheRead :=
  fun _ _ hi hs => ⟨fun hok => exec_serWriteDone hi hs hok, fun herr => exec_serWriteDone hi hs herr⟩

end Sys2Proof.Machine
end

section
/-! PROOFS. OperandRange (60_exceptions.md R156): what a checksum command answers on a length it does not accept. -/

namespace Sys2Proof.Machine

/-- Settles O14: each checksum command's Complete step (`exec_complete`) raises on the lengths it does not accept
(`completeCrc8chk_of_operandRange` and its two siblings); the statement's record is `State.raise` written out. -/
theorem operandRangeWritesOnlyStat : Obligations.OperandRangeWritesOnlyStat := by
  intro s i hs he hrange
  obtain ⟨rfl, hlen⟩ | ⟨rfl, hlen⟩ | ⟨rfl, hlen⟩ := hrange
  case inl => exact (exec_complete rfl hs he).trans (completeCrc8chk_of_operandRange (s := s.tick) hlen)
  case inr.inl => exact (exec_complete rfl hs he).trans (completeCrc16_of_operandRange (s := s.tick) hlen)
  case inr.inr => exact (exec_complete rfl hs he).trans (completeCrc16chk_of_operandRange (s := s.tick) hlen)

end Sys2Proof.Machine
end

section
/-! PROOFS. A response that the sequencer state does not await (70_reset_and_hazards.md R173). -/

namespace Sys2Proof.Machine

/-- No command is in flight in IDLE. -/
theorem seq_ne_idle_of_inFlight {s : State} {i : Instr} (hf : inFlight s = some i) : s.seq ≠ .idle := by
  intro hs
  simp [inFlight, hs] at hf

/-- The command in flight passes over an event it does not await; in IDLE, and in an unreachable EXEC whose CMD holds no
pure command, there is none to take it. -/
theorem onOwnEvent_unawaited {s : State} {ev : Event} (he : s.event = some ev) (ha : s.seq.awaits ev = false) :
    onOwnEvent s = .next s.tick := by
  unfold onOwnEvent
  split
  · next i hf => exact exec_unawaited (seq_ne_idle_of_inFlight hf) he ha
  · rfl

/-- Settles O30: every response goes to the command in flight, which does not await it (`onOwnEvent_unawaited`). -/
theorem unawaitedResponseIsIgnored : Obligations.UnawaitedResponseIsIgnored := by
  intro s ev rest hscript hawaits hwrite hread hcomplete
  have hignored : onOwnEvent s = .next s.tick := onOwnEvent_unawaited (State.event_cons hscript) hawaits
  rw [step_event hscript]
  cases ev with
  | hostRead a => exact absurd rfl (hread a)
  | hostWrite a v => exact absurd rfl (hwrite a v)
  | complete => exact absurd rfl hcomplete
  | twWriteDone _ | dlyDone | twReadDone _ | serWriteDone _ | serReadDone _ => exact hignored

end Sys2Proof.Machine
end

section
/-! PROOFS. From the word to its command (30_encoding.md R60 to R65): decode and encode agree, a step runs the decoded
command, and every command starts from every idle state. -/

namespace Sys2Proof.Machine

/-- Settles O1: `decode_encode`, and `encode_of_decode` for the words that decode. -/
theorem decodeEncodeAgree : Obligations.DecodeEncodeAgree :=
  ⟨decode_encode, fun _ _ hd => encode_of_decode hd⟩

/-- Settles O4: the decoder evaluated on each word. -/
theorem wordsOfTheTableDecode : Obligations.WordsOfTheTableDecode := by
  unfold Obligations.WordsOfTheTableDecode
  decide

/-- R60: acceptance is the step of the decoded command. -/
theorem acceptCommand_eq_exec {s : State} {w : Word16} {i : Instr} (hd : decode w = .instr i) :
    acceptCommand w s = exec i s := by
  rw [acceptCommand, hd]

/-- An event that some waiting state awaits is no host access, so it goes to the command in flight. -/
theorem onEvent_awaited {s : State} {q : SeqState} {ev : Event} (ha : q.awaits ev = true) :
    onEvent ev s = onOwnEvent s := by
  cases ev with
  | hostRead _ | hostWrite _ _ => cases q <;> cases ha
  | complete | twWriteDone _ | dlyDone | twReadDone _ | serWriteDone _ | serReadDone _ => rfl

theorem onOwnEvent_inFlight {s : State} {i : Instr} (hf : inFlight s = some i) : onOwnEvent s = exec i s := by
  rw [onOwnEvent, hf]

/-- The event the sequencer state awaits is a step of the command in flight. -/
theorem step_awaited {s : State} {i : Instr} {ev : Event} {rest : List Edge} (hscript : s.script = own ev :: rest)
    (ha : s.seq.awaits ev = true) (hf : inFlight s = some i) : step s = exec i s := by
  rw [step_event hscript, onEvent_awaited ha, onOwnEvent_inFlight hf]

/-- Settles O5: acceptance by `acceptCommand_eq_exec`, an awaited event by `step_awaited`. -/
theorem stepRunsTheDecodedCommand : Obligations.StepRunsTheDecodedCommand :=
  ⟨fun _ _ _ _ hs hscript hd => (step_hostWrite_cmd hscript hs).trans (acceptCommand_eq_exec hd),
    fun _ _ _ _ hscript ha hd hw => step_awaited hscript ha (inFlight_of_decode hd hw)⟩

/-- Settles O7: `exec_idle`, with the request written out. -/
theorem execStartsEachCommand : Obligations.ExecStartsEachCommand := by
  intro i s hs
  rw [exec_idle hs, acceptRequest_eq_startRequest]
  rfl

/-- R131: the checksum of the serial request. -/
theorem crc16_serialRequest : crc16 serialRequest = 0xC6E5#16 := by decide +kernel

/-- R131: the transmitted frame ends in its own checksum. -/
theorem trailerOk_txFrame : trailerOk txFrame := by
  unfold trailerOk
  decide +kernel

/-- Settles O20: the bytes by `txFrame_bytes`, the start of a serial command by `serialOp_idle`. -/
theorem transmittedFrame : Obligations.TransmittedFrame :=
  ⟨crc16_serialRequest, txFrame_bytes, trailerOk_txFrame,
    fun i s hi hs => (exec_serial hi s).trans (serialOp_idle hs i _)⟩

end Sys2Proof.Machine
end

section
/-! PROOFS. The 8-bit polynomial check (40_checksum.md R80, R81, R83, R89): the loop of R80 is long division by 0x131 over
GF(2), one bit of the frame at a time. -/

namespace Sys2Proof.Machine

/-- A frame as one word, first byte highest. -/
def frameWord (b0 b1 b2 : Byte) : Word24 := be16 b0 b1 ++ b2

/-- The remainder after the first `k` iterations of R80 (`rem24_eq_remainderAfter`). -/
def remainderAfter (x : Word24) (k : Nat) : Word24 := ((List.range k).foldl rem24Step (x, crc8Divisor)).1

/-- R80 begins with the frame as one word. -/
theorem rem24_eq_remainderAfter (b0 b1 b2 : Byte) : rem24 b0 b1 b2 = remainderAfter (frameWord b0 b1 b2) 16 := by
  have hword : frameWord b0 b1 b2 = (be16 b0 b1).zeroExtend 24 <<< 8 ||| b2.zeroExtend 24 := by
    rw [frameWord, BitVec.append_def, BitVec.shiftLeftZeroExtend_eq]
    rfl
  rw [rem24, hword]
  rfl

/-- After `k` iterations the divisor has been shifted `k` times. -/
theorem rem24_divisorAfter (x : Word24) (k : Nat) :
    ((List.range k).foldl rem24Step (x, crc8Divisor)).2 = crc8Divisor >>> k := by
  induction k with
  | zero => rfl
  | succ k ih => rw [List.range_succ, List.foldl_append, List.foldl_cons, List.foldl_nil, rem24Step, ih,
      BitVec.shiftRight_add]

theorem remainderAfter_zero (x : Word24) : remainderAfter x 0 = x := rfl

theorem remainderAfter_succ (x : Word24) (k : Nat) :
    remainderAfter x (k + 1) =
      if (remainderAfter x k).getLsbD (23 - k) then remainderAfter x k ^^^ crc8Divisor >>> k else remainderAfter x k := by
  rw [remainderAfter, List.range_succ, List.foldl_append, List.foldl_cons, List.foldl_nil, rem24Step,
    rem24_divisorAfter]
  rfl

/-- The shifted divisor is 0x131 with its highest bit at the bit tested, and no bit of it is lost. -/
theorem crc8Divisor_shift {k : Nat} (hk : k < 16) : crc8Divisor >>> k = 0x000131#24 <<< (15 - k) := by
  revert k; decide

/-- The shifted divisor has its highest bit at the bit tested. -/
theorem getLsbD_crc8Divisor_shift (k j : Nat) (hj : 23 - k ≤ j) (hk : k < 16) :
    (crc8Divisor >>> k).getLsbD j = decide (j = 23 - k) := by
  rw [BitVec.getLsbD_ushiftRight]
  obtain rfl | hlt := Nat.eq_or_lt_of_le hj
  · have htop : k + (23 - k) = 23 := by omega
    rw [htop, decide_eq_true rfl]
    rfl
  · have hout : 24 ≤ k + j := by omega
    have hne : j ≠ 23 - k := by omega
    rw [BitVec.getLsbD_of_ge _ _ hout, decide_eq_false hne]

/-- Each iteration clears the bit it tests and leaves those above clear. -/
theorem getLsbD_remainderAfter (x : Word24) {k : Nat} (hk : k ≤ 16) {j : Nat} (hj : 24 - k ≤ j) :
    (remainderAfter x k).getLsbD j = false := by
  induction k generalizing j with
  | zero => exact BitVec.getLsbD_of_ge _ _ hj
  | succ k ih =>
    have hdiv := getLsbD_crc8Divisor_shift k j (by omega) (by omega)
    rw [remainderAfter_succ]
    obtain rfl | hne := eq_or_ne j (23 - k)
    · split
      · next htest => rw [BitVec.getLsbD_xor, htest, hdiv, decide_eq_true rfl]; rfl
      · next htest => exact Bool.eq_false_iff.2 htest
    · have habove := ih (by omega) (j := j) (by omega)
      split
      · rw [BitVec.getLsbD_xor, habove, hdiv, decide_eq_false hne]; rfl
      · exact habove

/-- R89 (a): the sixteen iterations clear the sixteen high bits. -/
theorem rem24_lt (b0 b1 b2 : Byte) : (rem24 b0 b1 b2).toNat < 256 := by
  rw [rem24_eq_remainderAfter]
  refine Nat.lt_pow_two_of_testBit (n := 8) _ fun j hj => ?_
  exact getLsbD_remainderAfter _ (Nat.le_refl 16) hj

/-- The low byte is never tested, so it passes through. -/
theorem remainderAfter_xor_lowByte (x : Word24) (b : Byte) {k : Nat} (hk : k ≤ 16) :
    remainderAfter (x ^^^ b.zeroExtend 24) k = remainderAfter x k ^^^ b.zeroExtend 24 := by
  induction k with
  | zero => rfl
  | succ k ih =>
    have hhigh : (b.zeroExtend 24).getLsbD (23 - k) = false := by
      rw [BitVec.getLsbD_setWidth, BitVec.getLsbD_of_ge _ _ (by omega), Bool.and_false]
    rw [remainderAfter_succ, remainderAfter_succ, ih (by omega), BitVec.getLsbD_xor, hhigh, Bool.xor_false]
    split
    · rw [BitVec.xor_assoc, BitVec.xor_comm (b.zeroExtend 24), ← BitVec.xor_assoc]
    · rfl

theorem frameWord_xor_lowByte (b0 b1 b2 : Byte) : frameWord b0 b1 b2 = frameWord b0 b1 0#8 ^^^ b2.zeroExtend 24 := by
  have hlow : b2.zeroExtend 24 = 0#16 ++ b2 := BitVec.setWidth_eq_append (v := 8) (w := 24) (by decide)
  rw [hlow, frameWord, frameWord, BitVec.xor_append, BitVec.xor_zero, BitVec.zero_xor]

/-- R89 (b): the third byte is only XORed in. -/
theorem rem24_thirdByte (b0 b1 b2 : Byte) : rem24 b0 b1 b2 = rem24 b0 b1 0#8 ^^^ b2.zeroExtend 24 := by
  rw [rem24_eq_remainderAfter, rem24_eq_remainderAfter, frameWord_xor_lowByte b0 b1 b2,
    remainderAfter_xor_lowByte _ _ (Nat.le_refl 16)]

/-- R83: the generated byte is the whole remainder of the data word. -/
theorem zeroExtend_crc8Gen (b0 b1 : Byte) : (crc8Gen b0 b1).zeroExtend 24 = rem24 b0 b1 0#8 := by
  have hlt := rem24_lt b0 b1 0#8
  apply BitVec.eq_of_toNat_eq
  simp [crc8Gen, Nat.mod_eq_of_lt hlt]
  omega

/-- R89 (c): one third byte makes a frame valid. -/
theorem crc8Valid_iff {b0 b1 b2 : Byte} : crc8Valid b0 b1 b2 = true ↔ b2 = crc8Gen b0 b1 := by
  calc crc8Valid b0 b1 b2 = true ↔ (crc8Gen b0 b1).zeroExtend 24 ^^^ b2.zeroExtend 24 = 0#24 := by
        rw [crc8Valid, beq_iff_eq, rem24_thirdByte, zeroExtend_crc8Gen]
    _ ↔ (crc8Gen b0 b1).zeroExtend 24 = b2.zeroExtend 24 := BitVec.xor_eq_zero_iff
    _ ↔ crc8Gen b0 b1 = b2 := ⟨fun h => by simpa using congrArg (BitVec.setWidth 8) h, congrArg _⟩
    _ ↔ b2 = crc8Gen b0 b1 := eq_comm

/-- R89 (d): by `crc8Valid_iff` no second byte is valid. -/
theorem crc8Valid_changed {b0 b1 b2 x : Byte} (hv : crc8Valid b0 b1 b2 = true) (hx : x ≠ 0#8) :
    crc8Valid b0 b1 (b2 ^^^ x) = false := by
  refine Bool.eq_false_iff.2 fun hv' => hx ?_
  have hsame : b2 ^^^ x = b2 := (crc8Valid_iff.1 hv').trans (crc8Valid_iff.1 hv).symm
  exact (BitVec.xor_right_inj b2).1 (hsame.trans BitVec.xor_zero.symm)

/-- Settles O47: its five clauses are `rem24_lt`, `rem24_thirdByte`, `crc8Valid_iff`, `crc8Valid_changed` and one run of
R80. -/
theorem rem24DetectsEveryChangeOfTheChecksumByte : Obligations.Rem24DetectsEveryChangeOfTheChecksumByte :=
  ⟨rem24_lt, rem24_thirdByte, fun _ _ _ => crc8Valid_iff, fun _ _ _ _ => crc8Valid_changed, by decide +kernel⟩

-- Division by 0x131 (R89 (e))

/-- A carry-less product begun from an accumulator, over some bits of the multiplier. -/
def gf2Accumulate (q : BitVec 16) (acc : Word24) (bits : List Nat) : Word24 :=
  bits.foldl (fun acc i => if q.getLsbD i then acc ^^^ (0x000131#24 <<< i) else acc) acc

/-- One step of the product, on the bits `p` and `q` of two multipliers. -/
theorem gf2Step_xor (p q : Bool) (a b m : Word24) :
    (if p ^^ q then (a ^^^ b) ^^^ m else a ^^^ b) = (if p then a ^^^ m else a) ^^^ (if q then b ^^^ m else b) := by
  cases p
  · cases q
    · rfl
    · exact BitVec.xor_assoc a b m
  · cases q
    · show a ^^^ b ^^^ m = a ^^^ m ^^^ b
      rw [BitVec.xor_assoc, BitVec.xor_comm b, BitVec.xor_assoc]
    · show a ^^^ b = a ^^^ m ^^^ (b ^^^ m)
      rw [BitVec.xor_comm b, BitVec.xor_assoc, ← BitVec.xor_assoc m, BitVec.xor_self, BitVec.zero_xor]

theorem gf2Accumulate_xor (p q : BitVec 16) (a b : Word24) (bits : List Nat) :
    gf2Accumulate (p ^^^ q) (a ^^^ b) bits = gf2Accumulate p a bits ^^^ gf2Accumulate q b bits := by
  induction bits generalizing a b with
  | nil => rfl
  | cons i bits ih =>
    simp only [gf2Accumulate, List.foldl_cons] at ih ⊢
    rw [← ih]
    rw [BitVec.getLsbD_xor]
    congr 1
    exact gf2Step_xor ..

/-- The product is linear in the multiplier. -/
theorem gf2Mul131_xor (p q : BitVec 16) : gf2Mul131 (p ^^^ q) = gf2Mul131 p ^^^ gf2Mul131 q :=
  gf2Accumulate_xor p q 0#24 0#24 (List.range 16)

/-- The product with one power of two is a shift. -/
theorem gf2Mul131_twoPow {j : Nat} (hj : j < 16) : gf2Mul131 (BitVec.twoPow 16 j) = 0x000131#24 <<< j := by
  revert j; decide +kernel

/-- Each iteration subtracts a multiple of 0x131, so the frame is a multiple of 0x131 and what is left. -/
theorem exists_quotientAfter (x : Word24) {k : Nat} (hk : k ≤ 16) : ∃ q, x = gf2Mul131 q ^^^ remainderAfter x k := by
  induction k with
  | zero =>
    have hzero : gf2Mul131 0#16 = 0#24 := by decide +kernel
    exact ⟨0#16, by rw [hzero, remainderAfter_zero, BitVec.zero_xor]⟩
  | succ k ih =>
    obtain ⟨q, hq⟩ := ih (by omega)
    rw [remainderAfter_succ]
    split
    · refine ⟨q ^^^ BitVec.twoPow 16 (15 - k), ?_⟩
      rw [gf2Mul131_xor, gf2Mul131_twoPow (by omega), crc8Divisor_shift (by omega), BitVec.xor_comm (remainderAfter x k),
        BitVec.xor_assoc, ← BitVec.xor_assoc (0x000131#24 <<< _), BitVec.xor_self, BitVec.zero_xor]
      exact hq
    · exact ⟨q, hq⟩

/-- Settles O48: `exists_quotientAfter` at the last iteration, and `rem24_lt`. -/
theorem rem24IsTheRemainderBy131 : Obligations.Rem24IsTheRemainderBy131 := by
  intro b0 b1 b2
  obtain ⟨q, hq⟩ := exists_quotientAfter (frameWord b0 b1 b2) (Nat.le_refl 16)
  rw [← rem24_eq_remainderAfter] at hq
  exact ⟨q, hq, rem24_lt b0 b1 b2⟩

end Sys2Proof.Machine
end

section
/-! PROOFS. What the parts of a step can do, said once: the Complete step of a pure command, the judgement of a serial
response, the last operation of a sequencer command, a host write to a register, and R24's table. -/

namespace Sys2Proof.Machine

/-- Everything the Complete step of a pure command can do (R82, R86, R87, R104 to R106). -/
inductive Completion (s : State) : Instr → State → Prop where
  | operandRange (i : Instr) (hi : i = .crc8chk ∨ i = .crc16 ∨ i = .crc16chk) :
      Completion s i (s.raise .operandRange)
  | crc8chk : Completion s .crc8chk (s.setRem (rem24 (s.bufByte 0) (s.bufByte 1) (s.bufByte 2))).finish
  | crc16 : Completion s .crc16 (s.setCrc16 (Machine.crc16 (s.memRead 0 s.len.toNat))).finish
  | crc16chk (c : Word16) (hc : c = Machine.crc16 (s.memRead 0 (s.len.toNat - 2))) :
      Completion s .crc16chk ((s.setCrc16 c).setMatched (s.trailerMatches s.len.toNat c)).finish
  | convt : Completion s .convt (s.storeTemperature s.raw).finish
  | convrh : Completion s .convrh (s.storeHumidity s.raw).finish
  | convco2 : Completion s .convco2 (s.storeCo2 s.raw).finish

theorem completion_of_completeOf {i : Instr} {s t : State} (hi : isPure i = true) (h : completeOf i s = .next t) :
    Completion s i t := by
  cases i with
  | crc8chk =>
    simp only [completeOf, completeCrc8chk] at h
    split at h
    · cases h; exact .operandRange _ (.inl rfl)
    · obtain ⟨-, h⟩ := guardBuf_next h
      cases h; exact .crc8chk
  | crc16 =>
    simp only [completeOf, completeCrc16] at h
    split at h
    · cases h; exact .operandRange _ (.inr (.inl rfl))
    · cases h; exact .crc16
  | crc16chk =>
    simp only [completeOf, completeCrc16chk] at h
    split at h
    · cases h; exact .operandRange _ (.inr (.inr rfl))
    · cases h; exact .crc16chk _ rfl
  | convt => cases h; exact .convt
  | convrh => cases h; exact .convrh
  | convco2 => cases h; exact .convco2
  | meas _ | meast | measrh | rdsc | rdco2 => cases hi

/-- R158, R159: a Complete step ends the command and emits nothing. -/
theorem Completion.ends {i : Instr} {s t : State} (h : Completion s i t) :
    t.seq = .idle ∧ t.done = true ∧ t.request = s.request ∧ t.cmd = s.cmd := by
  cases h <;> exact ⟨rfl, rfl, rfl, rfl⟩

/-- Everything the conversion of a two-wire command can do (R116 to R118). -/
theorem convertOf_cases (i : Instr) (s : State) (raw : Word16) :
    (i = .meast ∧ convertOf i s raw = s.storeTemperature raw) ∨
    (i = .measrh ∧ convertOf i s raw = s.storeHumidity raw) ∨
    (i ≠ .meast ∧ i ≠ .measrh ∧ convertOf i s raw = s) := by
  cases i
  case meast => exact .inl ⟨rfl, rfl⟩
  case measrh => exact .inr (.inl ⟨rfl, rfl⟩)
  all_goals exact .inr (.inr ⟨Instr.noConfusion, Instr.noConfusion, rfl⟩)

/-- What a serial command does with the status byte (R135, R136). -/
theorem extractOf_cases (i : Instr) (s : State) :
    (i = .rdsc ∧ extractOf i s = s.setStatus (s.bufByte offStatus)) ∨ (i ≠ .rdsc ∧ extractOf i s = s) := by
  cases i
  case rdsc => exact .inl ⟨rfl, rfl⟩
  all_goals exact .inr ⟨Instr.noConfusion, rfl⟩

/-- What the checksum step of R134 leaves of a stored response before it raises or extracts. -/
def State.judged (s : State) (n : Nat) : State :=
  (s.setCrc16 (Machine.crc16 (s.memRead 0 (n - 2)))).setMatched
    (s.trailerMatches n (Machine.crc16 (s.memRead 0 (n - 2))))

/-- Everything the judgement of a serial response can do (R134). -/
theorem judgeSerFrame_cases (extract : State → State) (n : Nat) (s : State) :
    judgeSerFrame extract n s = (s.judged n).raise .checksumError ∨
    judgeSerFrame extract n s = ((extract (s.judged n)).storeCo2 (s.judged n).frameCo2).finish := by
  have heq : judgeSerFrame extract n s =
      if (s.judged n).matched then ((extract (s.judged n)).storeCo2 (s.judged n).frameCo2).finish
      else (s.judged n).raise .checksumError := rfl
  rw [heq]
  split
  · exact .inr rfl
  · exact .inl rfl

theorem bufIndex_lt {s : State} {a : Index} {k : Nat} (h : bufIndex s a = some k) : k < s.bufMax := by
  unfold bufIndex at h
  split at h
  · next hin =>
    have hk := Option.some.inj h
    omega
  · cases h

/-- Everything a host write to a register can do (R43, R45). -/
theorem writeIndex_cases (a : Index) (v : Word32) (s : State) :
    (∃ b, writeIndex a v s = s.setLen b) ∨ (∃ w, writeIndex a v s = s.setRaw w) ∨
    (∃ k b, k < s.bufMax ∧ writeIndex a v s = s.setBufByte k b) ∨ writeIndex a v s = s := by
  obtain rfl | hlen := eq_or_ne a 0x02#8
  · exact .inl ⟨_, writeIndex_len s v⟩
  obtain rfl | hraw := eq_or_ne a 0x03#8
  · exact .inr (.inl ⟨_, writeIndex_raw s v⟩)
  rw [writeIndex_other v hlen hraw]
  cases h : bufIndex s a with
  | none => exact .inr (.inr (.inr rfl))
  | some k => exact .inr (.inr (.inl ⟨k, _, bufIndex_lt h, rfl⟩))

/-- A host write to a register leaves the command in flight and its flags alone. -/
theorem writeIndex_frame (a : Index) (v : Word32) (s : State) :
    (writeIndex a v s).seq = s.seq ∧ (writeIndex a v s).cmd = s.cmd ∧ (writeIndex a v s).done = s.done ∧
    (writeIndex a v s).err = s.err ∧ (writeIndex a v s).request = s.request := by
  obtain ⟨b, h⟩ | ⟨w, h⟩ | ⟨k, b, -, h⟩ | h := writeIndex_cases a v s
  all_goals rw [h]; exact ⟨rfl, rfl, rfl, rfl, rfl⟩

-- R24's table

section
variable {s : State}

theorem outstanding_meas (hs : s.seq = .twWrite) (hop : opField s.cmd = 0x07#8) :
    s.outstanding = some (twWriteRequest (immField s.cmd)) := by
  simp [State.outstanding, hs, State.cmdOp, State.cmdImm, hop]

theorem outstanding_meast (hs : s.seq = .twWrite) (hop : opField s.cmd = 0x08#8) :
    s.outstanding = some (twWriteRequest Config.cmdTemp) := by
  simp [State.outstanding, hs, State.cmdOp, hop]

theorem outstanding_measrh (hs : s.seq = .twWrite) (hop : opField s.cmd = 0x09#8) :
    s.outstanding = some (twWriteRequest Config.cmdHum) := by
  simp [State.outstanding, hs, State.cmdOp, hop]

theorem outstanding_twSettle (hs : s.seq = .twSettle) : s.outstanding = some settleRequest := by
  rw [State.outstanding, hs]

theorem outstanding_twRead (hs : s.seq = .twRead) : s.outstanding = some twReadRequest := by
  rw [State.outstanding, hs]

theorem outstanding_serWrite (hs : s.seq = .serWrite) : s.outstanding = some (.serWrite txFrame) := by
  rw [State.outstanding, hs]

theorem outstanding_serRead (hs : s.seq = .serRead) : s.outstanding = some .serRead := by
  rw [State.outstanding, hs]

theorem outstanding_exec (hs : s.seq = .exec) : s.outstanding = none := by
  rw [State.outstanding, hs]

/-- The outstanding request is read from SEQ and CMD alone. -/
theorem outstanding_congr {t : State} (hseq : t.seq = s.seq) (hcmd : t.cmd = s.cmd) : t.outstanding = s.outstanding := by
  unfold State.outstanding State.cmdOp State.cmdImm
  rw [hseq, hcmd]

end

/-- Acceptance emits the request that is outstanding after it. -/
theorem outstanding_accept (s : State) (i : Instr) (r : Option Request) :
    (s.accept (encode i) (startState i) r).outstanding = acceptRequest i := by
  have hop : opField (s.accept (encode i) (startState i) r).cmd = i.opcode := opField_encode i
  cases i
  case meas imm =>
    have himm : immField (encode (.meas imm)) = imm := immField_encode (.meas imm)
    rw [outstanding_meas rfl hop, State.accept_cmd, himm]
    rfl
  case meast => exact outstanding_meast rfl hop
  case measrh => exact outstanding_measrh rfl hop
  case rdsc | rdco2 => exact outstanding_serWrite rfl
  all_goals exact outstanding_exec rfl -- a pure command

end Sys2Proof.Machine
end

section
/-! PROOFS. The block's invariant (10_state.md): its part about the data, which the register updates keep, and its part about
the command in flight, which every move keeps. -/

namespace Sys2Proof.Machine

/-- The part of the block's invariant that does not speak of the command in flight (`State.Inv.data`). -/
def State.DataInv (s : State) : Prop :=
  (Config.bufMaxLow ≤ s.bufMax ∧ s.bufMax ≤ Config.bufMaxHigh) ∧ Memory.wf s.buf ∧ (∀ c ∈ s.buf, c.1 < s.bufMax) ∧
  s.rem.toNat < 256 ∧ (s.valid = true → s.rem = 0#24) ∧
  (-307036160 ≤ s.tnum.toInt ∧ s.tnum.toInt ≤ 844544860) ∧ (-393216 ≤ s.rhnum.toInt ∧ s.rhnum.toInt ≤ 7798659)

theorem State.Inv.data {s : State} (h : s.Inv) : s.DataInv :=
  ⟨h.bufMax_range, h.buf_wf, h.buf_bound, h.rem_small, h.valid_rem, h.tnum_range, h.rhnum_range⟩

-- The register updates that touch the data; the other updates keep `DataInv` by definition

namespace State.DataInv

variable {s : State}

theorem bufMax_ge (h : s.DataInv) : 11 ≤ s.bufMax := h.1.1

theorem setRem (h : s.DataInv) {q : Word24} (hq : q.toNat < 256) : (s.setRem q).DataInv := by
  obtain ⟨hmax, hwf, hbound, -, -, htnum, hrhnum⟩ := h
  exact ⟨hmax, hwf, hbound, hq, beq_iff_eq.1, htnum, hrhnum⟩

theorem storeTemperature (h : s.DataInv) (raw : Word16) : (s.storeTemperature raw).DataInv := by
  obtain ⟨hmax, hwf, hbound, hrem, hvalid, -, hrhnum⟩ := h
  have hrange := convT_range raw
  rw [← toInt_storeTemperature s] at hrange
  exact ⟨hmax, hwf, hbound, hrem, hvalid, hrange, hrhnum⟩

theorem storeHumidity (h : s.DataInv) (raw : Word16) : (s.storeHumidity raw).DataInv := by
  obtain ⟨hmax, hwf, hbound, hrem, hvalid, htnum, -⟩ := h
  have hrange := convRh_range raw
  rw [← toInt_storeHumidity s] at hrange
  exact ⟨hmax, hwf, hbound, hrem, hvalid, htnum, hrange⟩

theorem setBufByte (h : s.DataInv) {k : Nat} (hk : k < s.bufMax) (b : Byte) : (s.setBufByte k b).DataInv := by
  obtain ⟨hmax, hwf, hbound, hrest⟩ := h
  refine ⟨hmax, Memory.wf_write hwf k b, fun c hc => ?_, hrest⟩
  obtain rfl | hc := Memory.mem_write hc
  · exact hk
  · exact hbound c hc

theorem memWrite (h : s.DataInv) {bytes : List Byte} (hfit : bytes.length ≤ s.bufMax) :
    (s.memWrite 0 bytes).DataInv := by
  obtain ⟨hmax, hwf, hbound, hrest⟩ := h
  refine ⟨hmax, Memory.wf_writeList hwf 0 bytes, fun c hc => ?_, hrest⟩
  obtain hc | hc := Memory.mem_writeList hc
  · exact hbound c hc
  · exact lt_of_lt_of_le hc ((Nat.zero_add _).trans_le hfit)

theorem storeTwFrame (h : s.DataInv) (b0 b1 b2 : Byte) : (s.storeTwFrame b0 b1 b2).DataInv := by
  have hfit : 3 ≤ s.bufMax := le_trans (by decide) h.bufMax_ge
  have hstored : ((s.memWrite 0 [b0, b1, b2]).setLen 3#8).DataInv := h.memWrite hfit
  exact hstored.setRem (rem24_lt b0 b1 b2)

theorem storeSerFrame (h : s.DataInv) (bytes : List Byte) : (s.storeSerFrame bytes).DataInv := by
  have hfit : (bytes.take (s.storedLength bytes)).length ≤ s.bufMax :=
    le_trans (List.length_take_le _ _) (Nat.min_le_right _ _)
  exact h.memWrite hfit

theorem convertOf (h : s.DataInv) (i : Instr) (raw : Word16) : (convertOf i s raw).DataInv := by
  obtain ⟨-, heq⟩ | ⟨-, heq⟩ | ⟨-, -, heq⟩ := convertOf_cases i s raw <;> rw [heq]
  · exact h.storeTemperature raw
  · exact h.storeHumidity raw
  · exact h

theorem extractOf (h : s.DataInv) (i : Instr) : (extractOf i s).DataInv := by
  obtain ⟨-, heq⟩ | ⟨-, heq⟩ := extractOf_cases i s <;> rw [heq] <;> exact h

theorem judgeSerFrame (h : s.DataInv) (i : Instr) (n : Nat) : (judgeSerFrame (Machine.extractOf i) n s).DataInv := by
  have hjudged : (s.judged n).DataInv := h
  obtain heq | heq := judgeSerFrame_cases (Machine.extractOf i) n s <;> rw [heq]
  · exact hjudged
  · exact hjudged.extractOf i

theorem completion (h : s.DataInv) {i : Instr} {t : State} (hc : Completion s i t) : t.DataInv := by
  cases hc with
  | crc8chk => exact h.setRem (rem24_lt _ _ _)
  | convt => exact h.storeTemperature s.raw
  | convrh => exact h.storeHumidity s.raw
  | operandRange | crc16 | crc16chk | convco2 => exact h

theorem writeIndex (h : s.DataInv) (a : Index) (v : Word32) : (writeIndex a v s).DataInv := by
  obtain ⟨b, heq⟩ | ⟨w, heq⟩ | ⟨k, b, hk, heq⟩ | heq := writeIndex_cases a v s <;> rw [heq]
  · exact h
  · exact h
  · exact h.setBufByte hk b
  · exact h

/-- The reset values are in every range, whatever BUF_MAX and the edges to come. -/
theorem of_reset {n : Nat} (hn : Config.bufMaxLow ≤ n ∧ n ≤ Config.bufMaxHigh) (edges : List Edge) :
    State.DataInv { State.reset with bufMax := n, script := edges } := by
  have hwf : Memory.wf State.reset.buf := by decide
  have hrem : State.reset.rem.toNat < 256 := by decide
  have htnum : -307036160 ≤ State.reset.tnum.toInt ∧ State.reset.tnum.toInt ≤ 844544860 := by decide
  have hrhnum : -393216 ≤ State.reset.rhnum.toInt ∧ State.reset.rhnum.toInt ≤ 7798659 := by decide
  exact ⟨hn, hwf, fun c hc => absurd hc List.not_mem_nil, hrem, fun _ => rfl, htnum, hrhnum⟩

end State.DataInv

-- The command in flight

/-- Where no command is in flight the invariant asks only that a fault code stand with DONE and that no request be out. -/
theorem State.DataInv.inv_of_idle {t : State} (h : t.DataInv) (hseq : t.seq = .idle) (hdone : t.err ≠ .none → t.done = true)
    (hrequest : t.request = none) : t.Inv := by
  obtain ⟨hmax, hwf, hbound, hrem, hvalid, htnum, hrhnum⟩ := h
  exact ⟨hmax, hwf, hbound, hrem, hvalid, htnum, hrhnum, .inl hseq, fun hbusy => absurd hseq hbusy, hdone, .inl hrequest⟩

/-- R158: a fault ends the command. -/
theorem State.DataInv.raise_inv {s : State} (h : s.DataInv) (hrequest : s.request = none) (k : ErrKind) : (s.raise k).Inv :=
  State.DataInv.inv_of_idle h rfl (fun _ => rfl) hrequest

/-- R159: so does success. -/
theorem State.DataInv.finish_inv {s : State} (h : s.DataInv) (hrequest : s.request = none) : s.finish.Inv :=
  State.DataInv.inv_of_idle h rfl (fun _ => rfl) hrequest

/-- A step that leaves SEQ, CMD, DONE and ERR and emits nothing has only the data to answer for. -/
theorem State.Inv.of_same_command {s t : State} (h : s.Inv) (hdata : t.DataInv) (hseq : t.seq = s.seq) (hcmd : t.cmd = s.cmd)
    (hdone : t.done = s.done) (herr : t.err = s.err) (hrequest : t.request = none) : t.Inv := by
  obtain ⟨hmax, hwf, hbound, hrem, hvalid, htnum, hrhnum⟩ := hdata
  have hfits : t.seqFitsCmd := by
    rw [State.seqFitsCmd, hseq, hcmd]
    exact h.seq_cmd
  refine ⟨hmax, hwf, hbound, hrem, hvalid, htnum, hrhnum, hfits, ?_, ?_, .inl hrequest⟩
  · rw [hseq, hdone, herr]; exact h.busy_clear
  · rw [herr, hdone]; exact h.err_done

/-- A sequencer command that goes on to the next state of its walk, with that state's request. -/
theorem State.Inv.goOn {s : State} (h : s.Inv) {q : SeqState} {r : Request} (hbusy : s.seq ≠ .idle)
    (hwalk : ∀ i, s.seq ∈ walk i → q ∈ walk i) (hr : (s.tick.goOn q r).outstanding = some r) : (s.tick.goOn q r).Inv := by
  have hfits : (s.tick.goOn q r).seqFitsCmd := by
    obtain hidle | ⟨i, hd, hw⟩ := h.seq_cmd
    · exact absurd hidle hbusy
    · exact .inr ⟨i, hd, hwalk i hw⟩
  obtain ⟨hdone, herr⟩ := h.busy_clear hbusy
  obtain ⟨hmax, hwf, hbound, hrem, hvalid, htnum, hrhnum⟩ := h.data
  exact ⟨hmax, hwf, hbound, hrem, hvalid, htnum, hrhnum, hfits, fun _ => ⟨hdone, herr⟩, h.err_done, .inr hr.symm⟩

theorem startState_mem_walk (i : Instr) : startState i ∈ walk i := by
  cases i <;> exact List.mem_cons_self

theorem State.Inv.accept {s : State} (h : s.Inv) (i : Instr) :
    (s.accept (encode i) (startState i) (acceptRequest i)).Inv := by
  have hfits : (s.accept (encode i) (startState i) (acceptRequest i)).seqFitsCmd :=
    .inr ⟨i, decode_encode i, startState_mem_walk i⟩
  obtain ⟨hmax, hwf, hbound, hrem, hvalid, htnum, hrhnum⟩ := h.data
  exact ⟨hmax, hwf, hbound, hrem, hvalid, htnum, hrhnum, hfits, fun _ => ⟨rfl, rfl⟩, fun herr => absurd rfl herr,
    .inr (outstanding_accept s i _).symm⟩

/-- The walks of R21 that pass through a state pass through the one after it. -/
theorem twSettle_mem_walk {i : Instr} (h : .twWrite ∈ walk i) : .twSettle ∈ walk i := by
  cases i <;> simp [walk] at h ⊢

theorem twRead_mem_walk {i : Instr} (h : .twSettle ∈ walk i) : .twRead ∈ walk i := by
  cases i <;> simp [walk] at h ⊢

theorem serRead_mem_walk {i : Instr} (h : .serWrite ∈ walk i) : .serRead ∈ walk i := by
  cases i <;> simp [walk] at h ⊢

theorem judgeSerFrame_ends (i : Instr) (n : Nat) (s : State) :
    (judgeSerFrame (extractOf i) n s).seq = .idle ∧ (judgeSerFrame (extractOf i) n s).done = true ∧
    (judgeSerFrame (extractOf i) n s).request = s.request := by
  obtain heq | heq := judgeSerFrame_cases (extractOf i) n s <;> rw [heq]
  · exact ⟨rfl, rfl, rfl⟩
  · obtain ⟨-, hx⟩ | ⟨-, hx⟩ := extractOf_cases i (s.judged n) <;> rw [hx] <;> exact ⟨rfl, rfl, rfl⟩

theorem convertOf_request (i : Instr) (s : State) (raw : Word16) : (convertOf i s raw).request = s.request := by
  obtain ⟨-, heq⟩ | ⟨-, heq⟩ | ⟨-, -, heq⟩ := convertOf_cases i s raw <;> rw [heq] <;> rfl

/-- Every move keeps the invariant. -/
theorem Move.inv {s t : State} (hm : Move s t) (h : s.Inv) : t.Inv := by
  have hdata : s.tick.DataInv := h.data
  cases hm with
  | quiet => exact h.of_same_command hdata rfl rfl rfl rfl rfl
  | reset e rest hscript hr => exact (State.DataInv.of_reset h.bufMax_range _).inv_of_idle rfl (fun herr => absurd rfl herr) rfl
  | hostRead a he => exact h.of_same_command hdata rfl rfl rfl rfl rfl
  | hostWrite a v hs he ha =>
    obtain ⟨hseq, hcmd, hdone, herr, hrequest⟩ := writeIndex_frame a v s.tick
    exact h.of_same_command (hdata.writeIndex a v) hseq hcmd hdone herr hrequest
  | illegal v hs he hd => exact State.DataInv.inv_of_idle hdata hs (fun _ => rfl) rfl
  | accept v i hs he hd => exact h.accept i
  | complete i t hi hf hs he hcomplete =>
    have hc := completion_of_completeOf hi hcomplete
    obtain ⟨hseq, hdone, hrequest, -⟩ := hc.ends
    exact (hdata.completion hc).inv_of_idle hseq (fun _ => hdone) hrequest
  | twWriteDone r hs he =>
    cases r with
    | err => exact hdata.raise_inv rfl _
    | ok =>
      exact h.goOn (by rw [hs]; decide) (fun i hw => twSettle_mem_walk (hs ▸ hw)) (outstanding_twSettle rfl)
  | dlyDone hs he =>
    exact h.goOn (by rw [hs]; decide) (fun i hw => twRead_mem_walk (hs ▸ hw)) (outstanding_twRead rfl)
  | twReadErr hs he => exact hdata.raise_inv rfl _
  | twReadBad b0 b1 b2 hs he hr => exact (hdata.storeTwFrame b0 b1 b2).raise_inv rfl _
  | twReadGood i b0 b1 b2 hi hf hs he hr =>
    have hframe : ((s.tick.storeTwFrame b0 b1 b2).setRaw (cleanedRaw b0 b1)).DataInv := hdata.storeTwFrame b0 b1 b2
    exact (hframe.convertOf i _).finish_inv (convertOf_request i _ _)
  | serWriteDone r hs he =>
    cases r with
    | err => exact hdata.raise_inv rfl _
    | ok =>
      exact h.goOn (by rw [hs]; decide) (fun i hw => serRead_mem_walk (hs ▸ hw)) (outstanding_serRead rfl)
  | serReadErr hs he => exact hdata.raise_inv rfl _
  | serReadLength bytes hs he hn => exact (hdata.storeSerFrame bytes).raise_inv rfl _
  | serReadJudged i bytes hi hf hs he h11 hm =>
    obtain ⟨hseq, hdone, hrequest⟩ := judgeSerFrame_ends i bytes.length (s.tick.storeSerFrame bytes)
    exact ((hdata.storeSerFrame bytes).judgeSerFrame i _).inv_of_idle hseq (fun _ => hdone) hrequest

/-- Settles O32: every step is a move (`step_moves`), and every move keeps the invariant (`Move.inv`). -/
theorem everyStepKeepsTheBlockInvariant : Obligations.EveryStepKeepsTheBlockInvariant :=
  fun _ _ h hstep => (step_moves hstep).inv h

/-- Settles O31: the reset values are in their ranges (`State.DataInv.of_reset`), and SEQ is IDLE. -/
theorem resetSatisfiesTheBlockInvariant : Obligations.ResetSatisfiesTheBlockInvariant := by
  have hrange : Config.bufMaxLow ≤ Config.bufMaxDefault ∧ Config.bufMaxDefault ≤ Config.bufMaxHigh := by decide
  exact (State.DataInv.of_reset hrange []).inv_of_idle rfl (fun herr => absurd rfl herr) rfl

end Sys2Proof.Machine
end

section
/-! PROOFS. The frames of the three kinds of command: what a step after acceptance leaves unchanged. -/

namespace Sys2Proof.Machine

/-- Settles O15: a step in EXEC is the Complete step, whose seven outcomes are `Completion`, or passes the edge. -/
theorem pureCommandsFrame : Obligations.PureCommandsFrame := by
  intro i s t hi hs h
  rw [exec_pure hi] at h
  obtain ⟨hidle, -⟩ | ⟨-, -, hcomplete⟩ | ⟨-, rfl⟩ := pureOp_cases h
  · rw [hs] at hidle
    cases hidle
  · cases completion_of_completeOf hi hcomplete with
    | operandRange i hi => obtain rfl | rfl | rfl := hi <;> simp
    | crc8chk | crc16 | crc16chk => simp
    | convt => simp [State.storeTemperature]
    | convrh => simp [State.storeHumidity]
    | convco2 => simp [State.storeCo2]
  · simp

/-- R115: a received frame is stored in BUF[0..2]. -/
theorem read_storeTwFrame (s : State) (b0 b1 b2 : Byte) {a : Nat} (ha : 3 ≤ a) :
    Memory.read (s.storeTwFrame b0 b1 b2).buf a = Memory.read s.buf a :=
  Memory.read_writeList_outside s.buf 0 [b0, b1, b2] (.inr ha)

/-- Settles O19: only a read answered with three bytes touches the data; what it stores is `State.storeTwFrame`, and what
it converts is by `convertOf_cases`. -/
theorem twoWireCommandsFrame : Obligations.TwoWireCommandsFrame := by
  intro i s t hi hs h
  rw [exec_twoWire hi] at h
  obtain ⟨hidle, -⟩ | ⟨r, -, -, rfl⟩ | ⟨-, -, rfl⟩ | ⟨r, hread, he, hr⟩ | ⟨-, rfl⟩ := twoWireOp_cases h
  · exact absurd hidle hs
  · cases r <;> simp [onTwWriteDone]
  · simp [onDlyDone]
  · have htaken (b0 b1 b2) (hok : r = .ok b0 b1 b2) :
        ¬ ((∀ b0 b1 b2, s.event ≠ some (.twReadDone (.ok b0 b1 b2))) ∨ s.seq ≠ .twRead) := by
      rintro (hne | hne)
      · exact hne b0 b1 b2 (hok ▸ he)
      · exact hne hread
    obtain ⟨-, rfl⟩ | ⟨b0, b1, b2, hok, hrem, rfl⟩ | ⟨b0, b1, b2, hok, hrem, rfl⟩ := onTwReadDone_cases hr
    · simp
    · have hbuf : ∀ a, 3 ≤ a → _ := fun _ => read_storeTwFrame s.tick b0 b1 b2
      simpa [State.storeTwFrame, htaken b0 b1 b2 hok] using hbuf
    · have hbuf : ∀ a, 3 ≤ a → _ := fun _ => read_storeTwFrame s.tick b0 b1 b2
      have hconvert := convertOf_cases i ((s.tick.storeTwFrame b0 b1 b2).setRaw (cleanedRaw b0 b1)) (cleanedRaw b0 b1)
      obtain ⟨hi, heq⟩ | ⟨hi, heq⟩ | ⟨-, -, heq⟩ := hconvert <;> rw [heq]
      · simpa [State.storeTwFrame, State.storeTemperature, hi, htaken b0 b1 b2 hok] using hbuf
      · simpa [State.storeTwFrame, State.storeHumidity, hi, htaken b0 b1 b2 hok] using hbuf
      · simpa [State.storeTwFrame, htaken b0 b1 b2 hok] using hbuf
  · simp

/-- R134: a response is stored in the first `min(n, BUF_MAX)` bytes of BUF. -/
theorem read_storeSerFrame (s : State) (bytes : List Byte) {a : Nat} (ha : min bytes.length s.bufMax ≤ a) :
    Memory.read (s.storeSerFrame bytes).buf a = Memory.read s.buf a := by
  refine Memory.read_writeList_outside s.buf 0 _ (.inr ?_)
  rw [Nat.zero_add]
  exact (List.length_take_le _ _).trans ha

/-- Settles O23: only a read answered with bytes touches the data; what it stores is `State.storeSerFrame`, and what it
extracts is by `judgeSerFrame_cases` and `extractOf_cases`. -/
theorem serialCommandsFrame : Obligations.SerialCommandsFrame := by
  intro i s t hi hs h
  rw [exec_serial hi] at h
  obtain ⟨hidle, -⟩ | ⟨r, -, -, rfl⟩ | ⟨r, hread, he, rfl⟩ | ⟨-, rfl⟩ := serialOp_cases h
  · exact absurd hidle hs
  · cases r <;> simp [onSerWriteDone]
  · have htaken (bytes) (hok : r = .ok bytes) :
        ¬ ((∀ bytes, s.event ≠ some (.serReadDone (.ok bytes))) ∨ s.seq ≠ .serRead) := by
      rintro (hne | hne)
      · exact hne bytes (hok ▸ he)
      · exact hne hread
    have hbuf (bytes) (hok : r = .ok bytes) : ∀ bytes', s.event = some (.serReadDone (.ok bytes')) →
        ∀ a, min bytes'.length s.bufMax ≤ a → Memory.read (s.tick.storeSerFrame bytes).buf a = Memory.read s.buf a := by
      intro bytes' he' a ha
      obtain rfl : bytes = bytes' := by simpa [hok] using he.symm.trans he'
      exact read_storeSerFrame s.tick bytes ha
    obtain ⟨-, heq⟩ | ⟨bytes, hok, -, heq⟩ | ⟨bytes, hok, -, -, heq⟩ := onSerReadDone_cases (extractOf i) r s.tick <;>
      rw [heq]
    · simp
    · simpa [State.storeSerFrame, htaken bytes hok] using hbuf bytes hok
    · obtain hj | hj := judgeSerFrame_cases (extractOf i) bytes.length (s.tick.storeSerFrame bytes) <;> rw [hj]
      · simpa [State.judged, State.storeSerFrame, htaken bytes hok] using hbuf bytes hok
      · obtain ⟨rfl, hx⟩ | ⟨hi, hx⟩ := extractOf_cases i ((s.tick.storeSerFrame bytes).judged bytes.length) <;> rw [hx]
        · simpa [State.storeCo2, State.judged, State.storeSerFrame, htaken bytes hok] using hbuf bytes hok
        · simpa [State.storeCo2, State.judged, State.storeSerFrame, htaken bytes hok] using hbuf bytes hok
  · simp

end Sys2Proof.Machine
end

section
/-! PROOFS. The sequencer (10_state.md R21, R24): every step answers, and the orders SEQ takes, with the requests emitted on
the way. -/

namespace Sys2Proof.Machine

-- Every step answers

section
variable {s : State}

theorem guardBuf_answers {addr n : Nat} {go : Result} (hfit : addr + n ≤ s.bufMax) (hgo : ∃ t, go = .next t) :
    ∃ t, guardBuf s addr n go = .next t := by
  rwa [guardBuf_inside hfit]

theorem completeOf_answers (h3 : 3 ≤ s.bufMax) (i : Instr) : ∃ t, completeOf i s = .next t := by
  cases i
  case crc8chk =>
    simp only [completeOf, completeCrc8chk]
    split
    · exact ⟨_, rfl⟩
    · exact guardBuf_answers h3 ⟨_, rfl⟩
  case crc16 => simp only [completeOf, completeCrc16]; split <;> exact ⟨_, rfl⟩
  case crc16chk => simp only [completeOf, completeCrc16chk]; split <;> exact ⟨_, rfl⟩
  all_goals exact ⟨_, rfl⟩ -- a conversion

theorem onTwReadDone_answers (h3 : 3 ≤ s.bufMax) (convert : State → Word16 → State) (r : TwReadResult) :
    ∃ t, onTwReadDone convert r s = .next t := by
  cases r with
  | err => exact ⟨_, rfl⟩
  | ok b0 b1 b2 =>
    refine guardBuf_answers h3 ?_
    split <;> exact ⟨_, rfl⟩

theorem exec_answers (h3 : 3 ≤ s.bufMax) (i : Instr) : ∃ t, exec i s = .next t := by
  obtain hi | hi | hi := kinds i
  · rw [exec_pure hi, pureOp]
    split
    case h_2 => exact completeOf_answers (s := s.tick) h3 i
    all_goals exact ⟨_, rfl⟩
  · rw [exec_twoWire hi, twoWireOp]
    split
    case h_4 r _ _ => exact onTwReadDone_answers (s := s.tick) h3 _ r
    all_goals exact ⟨_, rfl⟩
  · rw [exec_serial hi, serialOp]
    split <;> exact ⟨_, rfl⟩

theorem onOwnEvent_answers (h3 : 3 ≤ s.bufMax) : ∃ t, onOwnEvent s = .next t := by
  unfold onOwnEvent
  split
  · exact exec_answers h3 _
  · exact ⟨_, rfl⟩

theorem onHostWrite_answers (h3 : 3 ≤ s.bufMax) (a : Index) (v : Word32) : ∃ t, onHostWrite a v s = .next t := by
  unfold onHostWrite acceptCommand
  split
  · exact ⟨_, rfl⟩
  split
  · split
    · exact exec_answers h3 _
    all_goals exact ⟨_, rfl⟩ -- an illegal word
  · exact ⟨_, rfl⟩

theorem onEvent_answers (h3 : 3 ≤ s.bufMax) (ev : Event) : ∃ t, onEvent ev s = .next t := by
  cases ev with
  | hostRead a => exact ⟨_, rfl⟩
  | hostWrite a v => exact onHostWrite_answers h3 a v
  | complete | twWriteDone _ | dlyDone | twReadDone _ | serWriteDone _ | serReadDone _ => exact onOwnEvent_answers h3

end

/-- Settles O33: BUF has the three bytes the guard asks for, so whatever the edge brings is answered (`onEvent_answers`). -/
theorem everyStepAnswersANextState : Obligations.EveryStepAnswersANextState := by
  intro s hbuf
  unfold step onEdge
  split
  · exact ⟨_, rfl⟩
  split
  · exact ⟨_, rfl⟩
  split
  · exact ⟨_, rfl⟩
  · exact onEvent_answers (le_trans (by decide) hbuf) _

-- The orders SEQ takes

theorem startState_cases (i : Instr) : startState i = .exec ∨ startState i = .twWrite ∨ startState i = .serWrite := by
  cases i
  case meas | meast | measrh => exact .inr (.inl rfl)
  case rdsc | rdco2 => exact .inr (.inr rfl)
  all_goals exact .inl rfl

/-- Settles O34: each move that changes SEQ is one of the orders listed. -/
theorem seqTakesOnlyItsOrders : Obligations.SeqTakesOnlyItsOrders := by
  intro s t hstep hne
  cases step_moves hstep with
  | quiet | hostRead | illegal => exact absurd rfl hne
  | hostWrite a v hs he ha => exact absurd (writeIndex_frame a v s.tick).1 hne
  | reset e rest hscript hr => exact .inl ⟨e, rest, hscript, hr, rfl⟩
  | accept v i hs he hd => exact .inr (.inl ⟨hs, startState_cases i, v, i, he, hd, rfl⟩)
  | complete i t hi hf hs he hcomplete =>
    have hidle : t.seq = .idle := (completion_of_completeOf hi hcomplete).ends.1
    simp [hs, he, hidle]
  | twWriteDone r hs he => cases r <;> simp [hs, he, onTwWriteDone]
  | dlyDone hs he => simp [hs, he, onDlyDone]
  | twReadErr hs he | twReadBad b0 b1 b2 hs he hr | twReadGood i b0 b1 b2 hi hf hs he hr => simp [hs, he]
  | serWriteDone r hs he => cases r <;> simp [hs, he, onSerWriteDone]
  | serReadErr hs he | serReadLength bytes hs he hn => simp [hs, he]
  | serReadJudged i bytes hi hf hs he h11 hm =>
    have hidle := (judgeSerFrame_ends i bytes.length (s.tick.storeSerFrame bytes)).1
    simp [hs, he, hidle]

-- The requests

/-- What acceptance emits is a write to the two-wire address, the serial request frame, or nothing. -/
theorem acceptRequest_cases (i : Instr) :
    (∃ reg, acceptRequest i = some (.twWrite 0x40#7 reg [])) ∨ acceptRequest i = some (.serWrite txFrame) ∨
    acceptRequest i = none := by
  cases i
  case meas | meast | measrh => exact .inl ⟨_, rfl⟩
  case rdsc | rdco2 => exact .inr (.inl rfl)
  all_goals exact .inr (.inr rfl)

/-- Settles O35: the moves that emit are acceptance and the three that go on to a further waiting state. -/
theorem requestsAreEmittedOnlyInTheirSteps : Obligations.RequestsAreEmittedOnlyInTheirSteps := by
  intro s t r hstep hreq
  cases step_moves hstep with
  | quiet | reset | hostRead | illegal | twReadErr | twReadBad | serReadErr | serReadLength => cases hreq
  | hostWrite a v hs he ha =>
    obtain ⟨-, -, -, -, hnone⟩ := writeIndex_frame a v s.tick
    cases hnone.symm.trans hreq
  | accept v i hs he hd =>
    obtain ⟨reg, hi⟩ | hi | hi := acceptRequest_cases i <;> rw [State.accept_request, hi] at hreq <;> cases hreq
    · exact .inl ⟨⟨reg, rfl⟩, hs, v, he⟩
    · exact .inr (.inl ⟨congrArg _ txFrame_bytes, hs, v, he⟩)
  | complete i t hi hf hs he hcomplete =>
    obtain ⟨-, -, hnone, -⟩ := (completion_of_completeOf hi hcomplete).ends
    cases hnone.symm.trans hreq
  | twWriteDone r hs he =>
    cases r with
    | err => cases hreq
    | ok => cases hreq; exact .inr (.inr (.inl ⟨rfl, hs, he⟩))
  | dlyDone hs he => cases hreq; exact .inr (.inr (.inr (.inl ⟨rfl, hs, he⟩)))
  | twReadGood i b0 b1 b2 hi hf hs he hr =>
    have hnone := convertOf_request i ((s.tick.storeTwFrame b0 b1 b2).setRaw (cleanedRaw b0 b1)) (cleanedRaw b0 b1)
    cases hnone.symm.trans hreq
  | serWriteDone r hs he =>
    cases r with
    | err => cases hreq
    | ok => cases hreq; exact .inr (.inr (.inr (.inr ⟨rfl, hs, he⟩)))
  | serReadJudged i bytes hi hf hs he h11 hm =>
    obtain ⟨-, -, hnone⟩ := judgeSerFrame_ends i bytes.length (s.tick.storeSerFrame bytes)
    cases hnone.symm.trans hreq

/-- A step that ends in IDLE with nothing emitted agrees with R24's table. -/
theorem request_eq_outstanding_of_idle {t : State} (hseq : t.seq = .idle) (hrequest : t.request = none) :
    t.request = t.outstanding := by
  rw [hrequest, State.outstanding_of_idle hseq]

/-- A move to another sequencer state emits the request that is outstanding after it. -/
theorem Move.request_of_seq_ne {s t : State} (hm : Move s t) (hne : t.seq ≠ s.seq) : t.request = t.outstanding := by
  cases hm with
  | quiet | hostRead | illegal => exact absurd rfl hne
  | hostWrite a v hs he ha => exact absurd (writeIndex_frame a v s.tick).1 hne
  | reset | twReadErr | twReadBad | serReadErr | serReadLength => exact request_eq_outstanding_of_idle rfl rfl
  | accept v i hs he hd => exact (outstanding_accept s i _).symm
  | complete i t hi hf hs he hcomplete =>
    obtain ⟨hidle, -, hnone, -⟩ := (completion_of_completeOf hi hcomplete).ends
    exact request_eq_outstanding_of_idle hidle hnone
  | twWriteDone r hs he =>
    cases r with
    | err => exact request_eq_outstanding_of_idle rfl rfl
    | ok => exact (outstanding_twSettle rfl).symm
  | dlyDone hs he => exact (outstanding_twRead rfl).symm
  | twReadGood i b0 b1 b2 hi hf hs he hr => exact request_eq_outstanding_of_idle rfl (convertOf_request i _ _)
  | serWriteDone r hs he =>
    cases r with
    | err => exact request_eq_outstanding_of_idle rfl rfl
    | ok => exact (outstanding_serRead rfl).symm
  | serReadJudged i bytes hi hf hs he h11 hm =>
    obtain ⟨hidle, -, hnone⟩ := judgeSerFrame_ends i bytes.length (s.tick.storeSerFrame bytes)
    exact request_eq_outstanding_of_idle hidle hnone

/-- A move that stays in a waiting state emits nothing and keeps the command. -/
theorem Move.request_of_seq_eq {s t : State} (hm : Move s t) (heq : t.seq = s.seq) (hbusy : t.seq ≠ .idle) :
    t.outstanding = s.outstanding ∧ t.request = none := by
  have hsbusy : s.seq ≠ .idle := heq ▸ hbusy
  cases hm with
  | quiet | hostRead => exact ⟨outstanding_congr rfl rfl, rfl⟩
  | hostWrite _ _ hs | illegal _ hs | accept _ _ hs => exact absurd hs hsbusy
  | reset | twReadErr | twReadBad | twReadGood | serReadErr | serReadLength => exact absurd rfl hbusy
  | complete i t hi hf hs he hcomplete => exact absurd (completion_of_completeOf hi hcomplete).ends.1 hbusy
  | twWriteDone r hs he => cases r <;> cases heq.trans hs
  | dlyDone hs he => cases heq.trans hs
  | serWriteDone r hs he => cases r <;> cases heq.trans hs
  | serReadJudged i bytes hi hf hs he h11 hm => exact absurd (judgeSerFrame_ends i _ _).1 hbusy

/-- Settles O36: the table by the lemmas on `State.outstanding`, the steps by `Move.request_of_seq_ne` and
`Move.request_of_seq_eq`. -/
theorem outstandingRequestIsTheOneEmitted : Obligations.OutstandingRequestIsTheOneEmitted := by
  refine ⟨fun s => ⟨fun hs => ⟨outstanding_meas hs, outstanding_meast hs, outstanding_measrh hs⟩, outstanding_twSettle,
    outstanding_twRead, fun hs => ?serWrite, outstanding_serRead, ?none⟩, fun s t hstep => ⟨?moves, ?stays⟩⟩
  case serWrite => rw [outstanding_serWrite hs, txFrame_bytes]
  case none =>
    rintro (hs | hs)
    · exact State.outstanding_of_idle hs
    · exact outstanding_exec hs
  case moves => exact (step_moves hstep).request_of_seq_ne
  case stays => exact (step_moves hstep).request_of_seq_eq

end Sys2Proof.Machine
end

section
/-! PROOFS. Faults and measurements (60_exceptions.md R158, R164; 10_state.md R31): which steps write a measurement register,
what a step that raises leaves alone, and what stands while nothing happens. -/

namespace Sys2Proof.Machine

-- What a step can do to the measurement registers

/-- R115: a received frame alone is no measurement. -/
theorem storeTwFrame_measurements (s : State) (b0 b1 b2 : Byte) :
    (s.storeTwFrame b0 b1 b2).raw = s.raw ∧ (s.storeTwFrame b0 b1 b2).tnum = s.tnum ∧
    (s.storeTwFrame b0 b1 b2).rhnum = s.rhnum ∧ (s.storeTwFrame b0 b1 b2).co2 = s.co2 ∧
    (s.storeTwFrame b0 b1 b2).status = s.status := by
  simp [State.storeTwFrame]

/-- The conversions write TNUM and RHNUM alone. -/
theorem convertOf_frame (i : Instr) (s : State) (raw : Word16) :
    (convertOf i s raw).co2 = s.co2 ∧ (convertOf i s raw).status = s.status ∧ (convertOf i s raw).err = s.err := by
  obtain ⟨-, heq⟩ | ⟨-, heq⟩ | ⟨-, -, heq⟩ := convertOf_cases i s raw <;> rw [heq] <;>
    simp [State.storeTemperature, State.storeHumidity]

/-- The status byte goes to STATUS alone. -/
theorem extractOf_frame (i : Instr) (s : State) :
    (extractOf i s).raw = s.raw ∧ (extractOf i s).tnum = s.tnum ∧ (extractOf i s).rhnum = s.rhnum ∧
    (extractOf i s).err = s.err := by
  obtain ⟨-, heq⟩ | ⟨-, heq⟩ := extractOf_cases i s <;> rw [heq] <;> simp

/-- Settles O37: of the moves of a sequencer command only `twReadGood` and a judged response whose trailer is right write a
measurement register. -/
theorem onlyValidatedFramesBecomeMeasurements : Obligations.OnlyValidatedFramesBecomeMeasurements := by
  intro s t hwf hstep hnoreset hidle hexec
  cases step_moves hstep with
  | reset e rest hscript hr => cases (hnoreset e rest hscript).symm.trans hr
  | hostWrite _ _ hs | illegal _ hs | accept _ _ hs => exact absurd hs hidle
  | complete _ _ _ _ hs => exact absurd hs hexec
  | quiet | hostRead | dlyDone | twReadErr | serReadErr | serReadLength => exact .inl ⟨rfl, rfl, rfl, rfl, rfl⟩
  | twWriteDone r | serWriteDone r => cases r <;> exact .inl ⟨rfl, rfl, rfl, rfl, rfl⟩
  | twReadBad b0 b1 b2 hs he hr => exact .inl (storeTwFrame_measurements s.tick b0 b1 b2)
  | twReadGood i b0 b1 b2 hi hf hs he hr =>
    obtain ⟨hco2, hstatus, herr⟩ := convertOf_frame i ((s.tick.storeTwFrame b0 b1 b2).setRaw (cleanedRaw b0 b1))
      (cleanedRaw b0 b1)
    exact .inr (.inl ⟨hs, rfl, herr, hco2, hstatus, b0, b1, b2, he, hr⟩)
  | serReadJudged i bytes hi hf hs he h11 hm =>
    by_cases ht : trailerOk bytes
    · rw [judgeSerFrame_of_trailerOk (s := s.tick) hwf (by omega) hm ht]
      obtain ⟨hraw, htnum, hrhnum, herr⟩ := extractOf_frame i (s.tick.checkSerFrame bytes true)
      exact .inr (.inr ⟨hs, rfl, herr, hraw, htnum, hrhnum, bytes, he, h11, hm, ht⟩)
    · rw [judgeSerFrame_of_not_trailerOk (s := s.tick) hwf (by omega) hm ht]
      exact .inl ⟨rfl, rfl, rfl, rfl, rfl⟩

/-- Settles O38: the moves that set ERR are the ones that raise, and each raises on a state with the measurements of `s`. -/
theorem faultsWriteNoMeasurement : Obligations.FaultsWriteNoMeasurement := by
  intro s t hstep hidle herr hfault
  cases step_moves hstep with
  | quiet | hostRead | dlyDone => exact absurd herr hfault
  | reset => exact absurd rfl hfault
  | hostWrite _ _ hs | illegal _ hs | accept _ _ hs => exact absurd hs hidle
  | complete i t hi hf hs he hcomplete =>
    cases completion_of_completeOf hi hcomplete with
    | operandRange => exact ⟨rfl, rfl, rfl, rfl, rfl, rfl, rfl, rfl, rfl, fun _ => ⟨rfl, rfl, rfl⟩⟩
    | crc8chk | crc16 | crc16chk | convt | convrh | convco2 => exact absurd herr hfault
  | twWriteDone r hs | serWriteDone r hs =>
    cases r with
    | ok => exact absurd herr hfault
    | err => exact ⟨rfl, rfl, rfl, rfl, rfl, rfl, rfl, rfl, rfl, fun hexec => by cases hs.symm.trans hexec⟩
  | twReadErr hs | serReadErr hs =>
    exact ⟨rfl, rfl, rfl, rfl, rfl, rfl, rfl, rfl, rfl, fun hexec => by cases hs.symm.trans hexec⟩
  | serReadLength bytes hs =>
    exact ⟨rfl, rfl, rfl, rfl, rfl, rfl, rfl, rfl, rfl, fun hexec => by cases hs.symm.trans hexec⟩
  | twReadBad b0 b1 b2 hs he hr =>
    obtain ⟨hraw, htnum, hrhnum, hco2, hstatus⟩ := storeTwFrame_measurements s.tick b0 b1 b2
    exact ⟨rfl, rfl, rfl, hraw, htnum, hrhnum, hco2, hstatus, rfl, fun hexec => by cases hs.symm.trans hexec⟩
  | twReadGood i b0 b1 b2 hi hf hs he hr =>
    obtain ⟨-, -, hsame⟩ := convertOf_frame i ((s.tick.storeTwFrame b0 b1 b2).setRaw (cleanedRaw b0 b1)) (cleanedRaw b0 b1)
    exact absurd (hsame.trans herr) hfault
  | serReadJudged i bytes hi hf hs he h11 hm =>
    obtain hj | hj := judgeSerFrame_cases (extractOf i) bytes.length (s.tick.storeSerFrame bytes)
    · rw [hj]
      simp [State.judged, State.storeSerFrame, hs]
    · rw [hj] at hfault
      obtain ⟨-, -, -, hsame⟩ := extractOf_frame i ((s.tick.storeSerFrame bytes).judged bytes.length)
      exact absurd (hsame.trans herr) hfault

-- What stands while nothing happens (R48, R164)

section
variable {s : State} {rest : List Edge}

theorem step_noEdge (h : s.script = []) : step s = .next s.tick := by
  rw [step, onEdge, h]

theorem step_noEvent (h : s.script = { rst := false, event := none } :: rest) : step s = .next s.tick := by
  rw [step, onEdge, h]
  rfl

theorem step_reset {e : Edge} (h : s.script = e :: rest) (hr : e.rst = true) : step s = .next s.resetEdge := by
  rw [step, onEdge, h]
  exact if_pos hr

theorem awaits_complete {q : SeqState} (hq : q ≠ .exec) : q.awaits .complete = false := by
  cases q
  case exec => exact absurd rfl hq
  all_goals rfl

theorem step_complete_outside_exec (h : s.script = own .complete :: rest) (hs : s.seq ≠ .exec) : step s = .next s.tick :=
  (step_event h).trans (onOwnEvent_unawaited (State.event_cons h) (awaits_complete hs))

end

/-- Settles O39: the moves out of IDLE are the quiet ones, host reads, and host writes to a register. -/
theorem doneAndErrStandUntilTheNextCommand : Obligations.DoneAndErrStandUntilTheNextCommand := by
  refine ⟨fun s t hidle hstep hnoreset hnocmd => ?idle, fun s => step_noEdge, fun s rest => step_noEvent,
    fun s rest => step_complete_outside_exec⟩
  cases step_moves hstep with
  | quiet | hostRead => exact ⟨rfl, rfl, hidle, rfl⟩
  | hostWrite a v hs he ha =>
    obtain ⟨hseq, hcmd, hdone, herr, -⟩ := writeIndex_frame a v s.tick
    exact ⟨hdone, herr, hseq.trans hidle, hcmd⟩
  | reset e rest hscript hr => cases (hnoreset e rest hscript).symm.trans hr
  | illegal v _ he | accept v _ _ he => exact absurd he (hnocmd v)
  | complete _ _ _ _ hs | twWriteDone _ hs | dlyDone hs | twReadErr hs | twReadBad _ _ _ hs | twReadGood _ _ _ _ _ _ hs
  | serWriteDone _ hs | serReadErr hs | serReadLength _ hs | serReadJudged _ _ _ _ hs => cases hs.symm.trans hidle

/-- Settles O28: `step_reset`, whose state is the reset values with BUF_MAX and the edges to come. -/
theorem resetWinsAndClearsEverything : Obligations.ResetWinsAndClearsEverything := by
  intro s ev rest hscript
  rw [step_reset hscript rfl, State.resetEdge, hscript]
  rfl

end Sys2Proof.Machine
end

section
/-! PROOFS. The status word (10_state.md R20) and the formulas of the converters (41_convert.md R100, R101). -/

namespace Sys2Proof.Machine

-- STAT is its fields side by side, at the width their widths add up to

section
variable (s : State)

theorem getLsbD_statWord (j : Nat) :
    s.statWord.getLsbD j =
      BitVec.getLsbD (w := 16 + 4 + 4 + 3 + 1 + 1 + 1 + 1 + 1)
        (0#16 ++ s.seq.code ++ s.err.code ++ 0#3 ++ BitVec.ofBool s.matched ++ BitVec.ofBool s.valid
          ++ BitVec.ofBool s.errf ++ BitVec.ofBool s.done ++ BitVec.ofBool s.busy) j := rfl

/-- Above the five flags stand 5:7, ERR, SEQ and 16:31. -/
theorem extractLsb'_statWord (start len : Nat) :
    s.statWord.extractLsb' (5 + start) len =
      BitVec.extractLsb' (n := 16 + 4 + 4 + 3) start len (0#16 ++ s.seq.code ++ s.err.code ++ 0#3) := by
  have hflags : s.statWord.extractLsb' (5 + start) len =
      BitVec.extractLsb' (n := 16 + 4 + 4 + 3 + 1 + 1 + 1 + 1 + 1) (5 + start) len
        (0#16 ++ s.seq.code ++ s.err.code ++ 0#3 ++ BitVec.ofBool s.matched ++ BitVec.ofBool s.valid
          ++ BitVec.ofBool s.errf ++ BitVec.ofBool s.done ++ BitVec.ofBool s.busy) := rfl
  have hstart : 5 + start - 1 - 1 - 1 - 1 - 1 = start := by omega
  rw [hflags]
  iterate 5 rw [BitVec.extractLsb'_append_eq_of_le (by omega)]
  rw [hstart]

theorem extractLsb'_statWord_low : s.statWord.extractLsb' 5 3 = 0#3 := by
  rw [extractLsb'_statWord s 0, BitVec.extractLsb'_append_eq_right]

theorem extractLsb'_statWord_err : s.statWord.extractLsb' 8 4 = s.err.code := by
  rw [extractLsb'_statWord s 3, BitVec.extractLsb'_append_eq_of_le (by decide), BitVec.extractLsb'_append_eq_right]

theorem extractLsb'_statWord_seq : s.statWord.extractLsb' 12 4 = s.seq.code := by
  rw [extractLsb'_statWord s 7, BitVec.extractLsb'_append_eq_of_le (by decide),
    BitVec.extractLsb'_append_eq_of_le (by decide), BitVec.extractLsb'_append_eq_right]

theorem extractLsb'_statWord_high : s.statWord.extractLsb' 16 16 = 0#16 := by
  rw [extractLsb'_statWord s 11, BitVec.extractLsb'_append_eq_of_le (by decide),
    BitVec.extractLsb'_append_eq_of_le (by decide), BitVec.extractLsb'_append_eq_left]

end

/-- Settles O27: the flags by `getLsbD_statWord`, the fields above them by `extractLsb'_statWord`; the numbers are those of
`ErrKind.code` and `SeqState.code`. -/
theorem statWordFields : Obligations.StatWordFields := by
  intro s
  simp only [getLsbD_statWord, BitVec.getLsbD_append]
  refine ⟨?busy, ?done, ?errf, ?valid, ?matched, extractLsb'_statWord_low s, extractLsb'_statWord_high s, ?err, ?seq⟩
  case busy => cases h : s.seq <;> simp [State.busy, h]
  case done => simp
  case errf => cases h : s.err <;> simp [State.errf, h]
  case valid => simp
  case matched => simp
  case err => rw [extractLsb'_statWord_err]; cases s.err <;> rfl
  case seq => rw [extractLsb'_statWord_seq]; cases s.seq <;> rfl

/-- Settles O50: both sides are the same polynomial in `raw`. -/
theorem convertersAreTheFormulasExactly : Obligations.ConvertersAreTheFormulasExactly := by
  intro raw
  constructor
  · rw [convT]
    push_cast
    ring
  · rw [convRh]
    push_cast
    ring

end Sys2Proof.Machine
end

section
/-! PROOFS. Noninterference (10_state.md R22): no operation reads VALID, MATCH, DONE or ERR. Each operation of a step is
`FlagBlind`, and so is the step. -/

namespace Sys2Proof.Machine

/-- `s` with its four flags set anew. -/
def State.withFlags (s : State) (v m d : Bool) (e : ErrKind) : State :=
  { s with valid := v, matched := m, done := d, err := e }

/-- `t` and `t'` differ in the four flags alone, and each flag is the same in both, or the one of `s` carried over to `t`
and the one of `s'` to `t'`. -/
def FlagsCarried (s s' t t' : State) : Prop :=
  t'.withFlags t.valid t.matched t.done t.err = t ∧
  (t'.valid = t.valid ∨ (t.valid = s.valid ∧ t'.valid = s'.valid)) ∧
  (t'.matched = t.matched ∨ (t.matched = s.matched ∧ t'.matched = s'.matched)) ∧
  (t'.done = t.done ∨ (t.done = s.done ∧ t'.done = s'.done)) ∧
  (t'.err = t.err ∨ (t.err = s.err ∧ t'.err = s'.err))

/-- The operation does not read the flags. -/
def FlagBlindOp (g : State → State) : Prop :=
  ∀ (s : State) (v m d : Bool) (e : ErrKind), FlagsCarried s (s.withFlags v m d e) (g s) (g (s.withFlags v m d e))

/-- The answer does not depend on the flags. -/
def FlagBlind (f : State → Result) : Prop :=
  ∀ (s : State) (v m d : Bool) (e : ErrKind) (t : State), f s = .next t →
    ∃ t', f (s.withFlags v m d e) = .next t' ∧ FlagsCarried s (s.withFlags v m d e) t t'

section
variable {f g : State → Result} {p q : State → State} {c : State → Prop} [∀ s, Decidable (c s)]

theorem FlagBlindOp.ite (hc : ∀ s v m d e, c (s.withFlags v m d e) ↔ c s) (hp : FlagBlindOp p) (hq : FlagBlindOp q) :
    FlagBlindOp (fun s => if c s then p s else q s) := by
  intro s v m d e
  by_cases h : c s
  · simpa only [if_pos h, if_pos ((hc s v m d e).2 h)] using hp s v m d e
  · simpa only [if_neg h, if_neg (mt (hc s v m d e).1 h)] using hq s v m d e

theorem FlagBlindOp.next (hp : FlagBlindOp p) : FlagBlind (fun s => .next (p s)) := by
  intro s v m d e t h
  cases h
  exact ⟨_, rfl, hp s v m d e⟩

theorem FlagBlind.ite (hc : ∀ s v m d e, c (s.withFlags v m d e) ↔ c s) (hf : FlagBlind f) (hg : FlagBlind g) :
    FlagBlind (fun s => if c s then f s else g s) := by
  intro s v m d e
  by_cases h : c s
  · simpa only [if_pos h, if_pos ((hc s v m d e).2 h)] using hf s v m d e
  · simpa only [if_neg h, if_neg (mt (hc s v m d e).1 h)] using hg s v m d e

/-- The guard reads BUF_MAX alone. -/
theorem FlagBlind.guardBuf (hf : FlagBlind f) (addr n : Nat) : FlagBlind (fun s => guardBuf s addr n (f s)) := by
  refine FlagBlind.ite (fun _ _ _ _ _ => Iff.rfl) hf ?_
  intro s v m d e t h
  cases h

end

-- What each operation does to the flags

theorem flagBlindOp_tick : FlagBlindOp State.tick :=
  fun _ _ _ _ _ => ⟨rfl, .inr ⟨rfl, rfl⟩, .inr ⟨rfl, rfl⟩, .inr ⟨rfl, rfl⟩, .inr ⟨rfl, rfl⟩⟩

theorem flagBlindOp_accept (w : Word16) (q : SeqState) (r : Option Request) : FlagBlindOp (State.accept · w q r) :=
  fun _ _ _ _ _ => ⟨rfl, .inr ⟨rfl, rfl⟩, .inr ⟨rfl, rfl⟩, .inl rfl, .inl rfl⟩

theorem flagBlindOp_illegal (w : Word16) : FlagBlindOp (State.illegal · w) :=
  fun _ _ _ _ _ => ⟨rfl, .inr ⟨rfl, rfl⟩, .inr ⟨rfl, rfl⟩, .inl rfl, .inl rfl⟩

theorem flagBlindOp_raise (k : ErrKind) : FlagBlindOp (State.raise · k) :=
  fun _ _ _ _ _ => ⟨rfl, .inr ⟨rfl, rfl⟩, .inr ⟨rfl, rfl⟩, .inl rfl, .inl rfl⟩

theorem flagBlindOp_goOn (q : SeqState) (r : Request) : FlagBlindOp (State.goOn · q r) :=
  fun _ _ _ _ _ => ⟨rfl, .inr ⟨rfl, rfl⟩, .inr ⟨rfl, rfl⟩, .inr ⟨rfl, rfl⟩, .inr ⟨rfl, rfl⟩⟩

/-- R82, R86, R87, R104 to R106. -/
theorem flagBlind_completeOf (i : Instr) : FlagBlind (completeOf i) := by
  have hraise := (flagBlindOp_raise .operandRange).next
  cases i
  case crc8chk =>
    refine .ite (fun _ _ _ _ _ => Iff.rfl) hraise (.guardBuf (FlagBlindOp.next ?_) 0 3)
    exact fun _ _ _ _ _ => ⟨rfl, .inl rfl, .inr ⟨rfl, rfl⟩, .inl rfl, .inr ⟨rfl, rfl⟩⟩
  case crc16 =>
    refine .ite (fun _ _ _ _ _ => Iff.rfl) hraise (FlagBlindOp.next ?_)
    exact fun _ _ _ _ _ => ⟨rfl, .inr ⟨rfl, rfl⟩, .inr ⟨rfl, rfl⟩, .inl rfl, .inr ⟨rfl, rfl⟩⟩
  case crc16chk =>
    refine .ite (fun _ _ _ _ _ => Iff.rfl) hraise (FlagBlindOp.next ?_)
    exact fun _ _ _ _ _ => ⟨rfl, .inr ⟨rfl, rfl⟩, .inl rfl, .inl rfl, .inr ⟨rfl, rfl⟩⟩
  all_goals -- a conversion
    refine FlagBlindOp.next ?_
    exact fun _ _ _ _ _ => ⟨rfl, .inr ⟨rfl, rfl⟩, .inr ⟨rfl, rfl⟩, .inl rfl, .inr ⟨rfl, rfl⟩⟩

theorem flagBlindOp_onTwWriteDone (r : Ack) : FlagBlindOp (onTwWriteDone r) := by
  cases r with
  | ok => exact flagBlindOp_goOn _ _
  | err => exact flagBlindOp_raise _

theorem flagBlindOp_onSerWriteDone (r : Ack) : FlagBlindOp (onSerWriteDone r) := by
  cases r with
  | ok => exact flagBlindOp_goOn _ _
  | err => exact flagBlindOp_raise _

/-- R115: VALID is written with REM, from the received bytes. -/
theorem flagBlind_onTwReadDone (i : Instr) (r : TwReadResult) : FlagBlind (onTwReadDone (convertOf i) r) := by
  cases r with
  | err => exact (flagBlindOp_raise _).next
  | ok b0 b1 b2 =>
    refine .guardBuf (.ite (fun _ _ _ _ _ => Iff.rfl) (FlagBlindOp.next ?bad) (FlagBlindOp.next ?good)) 0 3
    case bad => exact fun _ _ _ _ _ => ⟨rfl, .inl rfl, .inr ⟨rfl, rfl⟩, .inl rfl, .inl rfl⟩
    case good =>
      intro s v m d e
      cases i <;> exact ⟨rfl, .inl rfl, .inr ⟨rfl, rfl⟩, .inl rfl, .inr ⟨rfl, rfl⟩⟩

/-- R134: MATCH is written with CRC16, from the stored bytes. -/
theorem flagBlindOp_judgeSerFrame (i : Instr) (n : Nat) (bytes : List Byte) :
    FlagBlindOp (fun s => judgeSerFrame (extractOf i) n (s.storeSerFrame bytes)) := by
  refine .ite (fun _ _ _ _ _ => Iff.rfl) ?good ?bad
  case good =>
    intro s v m d e
    cases i <;> refine ⟨rfl, .inr ⟨?_, ?_⟩, .inl rfl, .inl rfl, .inr ⟨?_, ?_⟩⟩ <;>
      simp [extractOf, State.storeCo2, State.storeSerFrame]
  case bad =>
    refine fun s v m d e => ⟨rfl, .inr ⟨?_, ?_⟩, .inl rfl, .inl rfl, .inl rfl⟩ <;> simp [State.storeSerFrame]

theorem flagBlindOp_onSerReadDone (i : Instr) (r : SerReadResult) : FlagBlindOp (onSerReadDone (extractOf i) r) := by
  cases r with
  | err => exact flagBlindOp_raise _
  | ok bytes =>
    refine .ite (fun _ _ _ _ _ => Iff.rfl) ?length (flagBlindOp_judgeSerFrame i _ bytes)
    exact fun _ _ _ _ _ => ⟨rfl, .inr ⟨rfl, rfl⟩, .inr ⟨rfl, rfl⟩, .inl rfl, .inl rfl⟩

/-- R43. -/
theorem flagBlindOp_writeIndex (a : Index) (v : Word32) : FlagBlindOp (fun s => writeIndex a v s.tick) := by
  intro s v' m d e
  obtain rfl | hlen := eq_or_ne a 0x02#8
  · exact ⟨rfl, .inr ⟨rfl, rfl⟩, .inr ⟨rfl, rfl⟩, .inr ⟨rfl, rfl⟩, .inr ⟨rfl, rfl⟩⟩
  obtain rfl | hraw := eq_or_ne a 0x03#8
  · exact ⟨rfl, .inr ⟨rfl, rfl⟩, .inr ⟨rfl, rfl⟩, .inr ⟨rfl, rfl⟩, .inr ⟨rfl, rfl⟩⟩
  have hindex : bufIndex (s.withFlags v' m d e).tick a = bufIndex s.tick a := rfl
  simp only [writeIndex_other v hlen hraw, hindex]
  cases bufIndex s.tick a <;> exact ⟨rfl, .inr ⟨rfl, rfl⟩, .inr ⟨rfl, rfl⟩, .inr ⟨rfl, rfl⟩, .inr ⟨rfl, rfl⟩⟩

-- The walks, and the step

theorem flagBlind_pureOp (i : Instr) {complete : State → Result} (hcomplete : FlagBlind complete) :
    FlagBlind (pureOp i complete) := by
  intro s v m d e t h
  by_cases hidle : s.seq = .idle
  · rw [pureOp_idle hidle] at h
    rw [pureOp_idle (s := s.withFlags v m d e) hidle]
    exact (flagBlindOp_accept _ _ _).next s v m d e t h
  by_cases hexec : s.seq = .exec ∧ s.event = some .complete
  · obtain ⟨hs, he⟩ := hexec
    rw [pureOp_complete hs he] at h
    rw [pureOp_complete (s := s.withFlags v m d e) hs he]
    exact hcomplete s.tick v m d e t h
  · rw [pureOp_unawaited hidle hexec] at h
    rw [pureOp_unawaited (s := s.withFlags v m d e) hidle hexec]
    exact flagBlindOp_tick.next s v m d e t h

theorem flagBlind_twoWireOp (i : Instr) : FlagBlind (twoWireOp i (codeOf i) (convertOf i)) := by
  intro s v m d e t h
  by_cases hidle : s.seq = .idle
  · rw [twoWireOp_idle hidle] at h
    rw [twoWireOp_idle (s := s.withFlags v m d e) hidle]
    exact (flagBlindOp_accept _ _ _).next s v m d e t h
  by_cases hwrite : ∃ r, s.seq = .twWrite ∧ s.event = some (.twWriteDone r)
  · obtain ⟨r, hs, he⟩ := hwrite
    rw [twoWireOp_writeDone hs he] at h
    rw [twoWireOp_writeDone (s := s.withFlags v m d e) hs he]
    exact (flagBlindOp_onTwWriteDone r).next s.tick v m d e t h
  by_cases hsettle : s.seq = .twSettle ∧ s.event = some .dlyDone
  · obtain ⟨hs, he⟩ := hsettle
    rw [twoWireOp_dlyDone hs he] at h
    rw [twoWireOp_dlyDone (s := s.withFlags v m d e) hs he]
    exact (flagBlindOp_goOn _ _).next s.tick v m d e t h
  by_cases hread : ∃ r, s.seq = .twRead ∧ s.event = some (.twReadDone r)
  · obtain ⟨r, hs, he⟩ := hread
    rw [twoWireOp_readDone hs he] at h
    rw [twoWireOp_readDone (s := s.withFlags v m d e) hs he]
    exact flagBlind_onTwReadDone i r s.tick v m d e t h
  · rw [not_exists] at hwrite hread
    rw [twoWireOp_unawaited hidle hwrite hsettle hread] at h
    rw [twoWireOp_unawaited (s := s.withFlags v m d e) hidle hwrite hsettle hread]
    exact flagBlindOp_tick.next s v m d e t h

theorem flagBlind_serialOp (i : Instr) : FlagBlind (serialOp i (extractOf i)) := by
  intro s v m d e t h
  by_cases hidle : s.seq = .idle
  · rw [serialOp_idle hidle] at h
    rw [serialOp_idle (s := s.withFlags v m d e) hidle]
    exact (flagBlindOp_accept _ _ _).next s v m d e t h
  by_cases hwrite : ∃ r, s.seq = .serWrite ∧ s.event = some (.serWriteDone r)
  · obtain ⟨r, hs, he⟩ := hwrite
    rw [serialOp_writeDone hs he] at h
    rw [serialOp_writeDone (s := s.withFlags v m d e) hs he]
    exact (flagBlindOp_onSerWriteDone r).next s.tick v m d e t h
  by_cases hread : ∃ r, s.seq = .serRead ∧ s.event = some (.serReadDone r)
  · obtain ⟨r, hs, he⟩ := hread
    rw [serialOp_readDone hs he] at h
    rw [serialOp_readDone (s := s.withFlags v m d e) hs he]
    exact (flagBlindOp_onSerReadDone i r).next s.tick v m d e t h
  · rw [not_exists] at hwrite hread
    rw [serialOp_unawaited hidle hwrite hread] at h
    rw [serialOp_unawaited (s := s.withFlags v m d e) hidle hwrite hread]
    exact flagBlindOp_tick.next s v m d e t h

theorem flagBlind_exec (i : Instr) : FlagBlind (exec i) := by
  obtain hi | hi | hi := kinds i
  · rw [funext (exec_pure hi)]
    exact flagBlind_pureOp i (flagBlind_completeOf i)
  · rw [funext (exec_twoWire hi)]
    exact flagBlind_twoWireOp i
  · rw [funext (exec_serial hi)]
    exact flagBlind_serialOp i

theorem flagBlind_acceptCommand (w : Word16) : FlagBlind (acceptCommand w) := by
  by_cases hd : ∃ i, decode w = .instr i
  · obtain ⟨i, hd⟩ := hd
    have heq : acceptCommand w = exec i := funext fun s => acceptCommand_eq_exec hd
    exact heq ▸ flagBlind_exec i
  · have heq : acceptCommand w = fun s => .next (s.illegal w) := funext fun s => acceptCommand_of_illegal hd
    exact heq ▸ (flagBlindOp_illegal w).next

theorem flagBlind_onHostWrite (a : Index) (v : Word32) : FlagBlind (onHostWrite a v) := by
  refine .ite (fun _ _ _ _ _ => Iff.rfl) flagBlindOp_tick.next ?_
  exact .ite (fun _ _ _ _ _ => Iff.rfl) (flagBlind_acceptCommand _) (flagBlindOp_writeIndex a v).next

/-- Which command is in flight is read from SEQ and CMD. -/
theorem flagBlind_onOwnEvent : FlagBlind onOwnEvent := by
  intro s v m d e t h
  have hsame : inFlight (s.withFlags v m d e) = inFlight s := rfl
  cases hf : inFlight s with
  | some i =>
    rw [onOwnEvent_inFlight hf] at h
    rw [onOwnEvent_inFlight (hsame.trans hf)]
    exact flagBlind_exec i s v m d e t h
  | none =>
    rw [onOwnEvent, hf] at h
    rw [onOwnEvent, hsame, hf]
    exact flagBlindOp_tick.next s v m d e t h

theorem flagBlind_onEvent {ev : Event} (hread : ∀ a, ev ≠ .hostRead a) : FlagBlind (onEvent ev) := by
  cases ev with
  | hostRead a => exact absurd rfl (hread a)
  | hostWrite a v => exact flagBlind_onHostWrite a v
  | complete | twWriteDone _ | dlyDone | twReadDone _ | serWriteDone _ | serReadDone _ => exact flagBlind_onOwnEvent

theorem flagBlindOp_resetEdge : FlagBlindOp State.resetEdge :=
  fun _ _ _ _ _ => ⟨rfl, .inl rfl, .inl rfl, .inl rfl, .inl rfl⟩

/-- A step whose event is no host read. -/
theorem step_flagsCarried {s t : State} (hread : ∀ a, s.event ≠ some (.hostRead a)) (hstep : step s = .next t)
    (v m d : Bool) (e : ErrKind) :
    ∃ t', step (s.withFlags v m d e) = .next t' ∧ FlagsCarried s (s.withFlags v m d e) t t' := by
  cases hscript : s.script with
  | nil =>
    rw [step_noEdge hscript] at hstep
    rw [step_noEdge (s := s.withFlags v m d e) hscript]
    exact flagBlindOp_tick.next s v m d e t hstep
  | cons edge rest =>
    obtain ⟨rst, event⟩ := edge
    cases rst with
    | true =>
      rw [step_reset hscript rfl] at hstep
      rw [step_reset (s := s.withFlags v m d e) hscript rfl]
      exact flagBlindOp_resetEdge.next s v m d e t hstep
    | false =>
      cases event with
      | none =>
        rw [step_noEvent hscript] at hstep
        rw [step_noEvent (s := s.withFlags v m d e) hscript]
        exact flagBlindOp_tick.next s v m d e t hstep
      | some ev =>
        have hev : ∀ a, ev ≠ .hostRead a := fun a ha => hread a ((State.event_cons hscript).trans (congrArg some ha))
        rw [step_event (ev := ev) hscript] at hstep
        rw [step_event (s := s.withFlags v m d e) (ev := ev) hscript]
        exact flagBlind_onEvent hev s v m d e t hstep

/-- Settles O40: `step_flagsCarried`, with `State.withFlags` and `FlagsCarried` written out. -/
theorem noOperationReadsTheFlags : Obligations.NoOperationReadsTheFlags :=
  fun _ _ v m d e hread hstep => step_flagsCarried hread hstep v m d e

end Sys2Proof.Machine
end

section
/-! PROOFS. Runs (10_state.md R30, R48, R178): running over edges that the sequencer state does not await, and taking the
awaited response after them. -/

namespace Sys2Proof.Machine

-- Runs step by step, of any machine

section
variable {M : Host.Core} {s t : M.State}

theorem run_of_step (h : M.step s = .next t) (k : Nat) : M.run (k + 1) s = M.run k t := by
  rw [Host.Core.run, h]

theorem run_one (h : M.step s = .next t) : M.run 1 s = .next t := run_of_step h 0

/-- A run of `m` steps that answers goes on from its answer. -/
theorem run_append {m : Nat} (h : M.run m s = .next t) (k : Nat) : M.run (m + k) s = M.run k t := by
  induction m generalizing s with
  | zero =>
    cases h
    rw [Nat.zero_add]
  | succ m ih =>
    rw [Host.Core.run] at h
    split at h
    · next u hu =>
      rw [Nat.add_right_comm, run_of_step hu]
      exact ih h
    · cases h
    · cases h

end

-- Edges without effect (R173, R178)

/-- What an idle edge can be. -/
theorem idleFor_cases {q : SeqState} {e : Edge} (h : e.idleFor q = true) :
    e = { rst := false, event := none } ∨ ∃ ev, e = own ev ∧ q.awaits ev = false := by
  obtain ⟨rst, event⟩ := e
  cases rst with
  | true => cases h
  | false =>
    cases event with
    | none => exact .inl rfl
    | some ev => exact .inr ⟨ev, rfl, by simpa [Edge.idleFor] using h⟩

/-- While busy, an event that is not awaited changes nothing but the output ports. -/
theorem step_unawaited {s : State} {ev : Event} {rest : List Edge} (hscript : s.script = own ev :: rest)
    (hbusy : s.seq ≠ .idle) (ha : s.seq.awaits ev = false) : ∃ t, step s = .next t ∧ t.arch = s.arch ∧ t.script = rest := by
  have htail : s.tick.script = rest := congrArg List.tail hscript
  have hown : onOwnEvent s = .next s.tick := onOwnEvent_unawaited (State.event_cons hscript) ha
  cases ev with
  | hostRead a => exact ⟨_, step_hostRead hscript, rfl, htail⟩
  | hostWrite a v => exact ⟨_, step_hostWrite_busy hscript hbusy, rfl, htail⟩
  | complete | twWriteDone _ | dlyDone | twReadDone _ | serWriteDone _ | serReadDone _ =>
    exact ⟨s.tick, (step_event hscript).trans hown, rfl, htail⟩

/-- While busy, an edge that is idle for the sequencer state, or none, changes nothing but the output ports. -/
theorem step_idle {s : State} (hbusy : s.seq ≠ .idle) (hidle : ∀ e ∈ s.script.head?, Edge.idleFor s.seq e = true) :
    ∃ t, step s = .next t ∧ t.arch = s.arch ∧ t.script = s.script.tail := by
  cases hscript : s.script with
  | nil => exact ⟨s.tick, step_noEdge hscript, rfl, congrArg List.tail hscript⟩
  | cons e rest =>
    have he : Edge.idleFor s.seq e = true := hidle e (by rw [hscript]; rfl)
    obtain rfl | ⟨ev, rfl, ha⟩ := idleFor_cases he
    · exact ⟨s.tick, step_noEvent hscript, rfl, congrArg List.tail hscript⟩
    · exact step_unawaited hscript hbusy ha

theorem seq_of_arch {s t : State} (h : t.arch = s.arch) : t.seq = s.seq := (congrArg State.seq h :)

/-- Any number of such edges. -/
theorem run_idle (n : Nat) {s : State} (hbusy : s.seq ≠ .idle)
    (hidle : ∀ e ∈ s.script.take n, Edge.idleFor s.seq e = true) :
    ∃ t : State, Sys2Proof.core.run n s = .next t ∧ t.arch = s.arch ∧ t.script = s.script.drop n := by
  induction n generalizing s with
  | zero => exact ⟨s, rfl, rfl, rfl⟩
  | succ n ih =>
    have hhead : ∀ e ∈ s.script.head?, Edge.idleFor s.seq e = true := by
      intro e he
      cases hscript : s.script with
      | nil => rw [hscript] at he; cases he
      | cons e' rest =>
        rw [hscript] at he hidle
        cases he
        exact hidle e List.mem_cons_self
    obtain ⟨u, hstep, harch, htail⟩ := step_idle hbusy hhead
    have hseq : u.seq = s.seq := seq_of_arch harch
    have hnext : ∀ e ∈ u.script.take n, Edge.idleFor u.seq e = true := by
      intro e he
      rw [hseq]
      refine hidle e ?_
      rw [htail] at he
      cases hscript : s.script with
      | nil => simp [hscript] at he
      | cons e' rest =>
        rw [hscript] at he
        exact List.mem_cons_of_mem e' he
    obtain ⟨t, hrun, harch', hdrop⟩ := ih (hseq ▸ hbusy) hnext
    refine ⟨t, (run_of_step (M := core) hstep n).trans hrun, harch'.trans harch, ?_⟩
    rw [hdrop, htail, List.drop_tail]

/-- Settles O41: `run_idle` over every edge there is. -/
theorem noWatchdog : Obligations.NoWatchdog := by
  intro n s hbusy hidle
  obtain ⟨t, hrun, harch, -⟩ := run_idle n hbusy fun e he => hidle e (List.mem_of_mem_take he)
  exact ⟨t, hrun, harch⟩

-- The awaited response after idle edges

/-- `s` with the edges `edges` to come and its output ports low. -/
def State.atEdges (s : State) (edges : List Edge) : State := { s with script := edges, request := none, rdata := none }

/-- The state before an edge is, for that edge's step, the state idle edges ago. -/
theorem tick_of_arch {s u : State} {e : Edge} {rest : List Edge} (harch : u.arch = s.arch) (hscript : u.script = e :: rest) :
    u.tick = s.atEdges rest := by
  have htick : u.tick = { u.arch with script := u.script.tail } := rfl
  rw [htick, harch, hscript]
  rfl

section
variable {s : State} {i : Instr} {ev : Event} {es rest : List Edge}

theorem inFlight_of_cmd (hcmd : s.cmd = encode i) (hw : s.seq ∈ walk i) : inFlight s = some i :=
  inFlight_of_decode (hcmd ▸ decode_encode i) hw

/-- After idle edges the awaited event is a step of the command in flight. -/
theorem run_awaited (hcmd : s.cmd = encode i) (hw : s.seq ∈ walk i) (hes : ∀ e ∈ es, Edge.idleFor s.seq e = true)
    (ha : s.seq.awaits ev = true) (hscript : s.script = es ++ own ev :: rest) :
    ∃ u : State, u.seq = s.seq ∧ u.event = some ev ∧ u.bufMax = s.bufMax ∧ u.buf = s.buf ∧ u.tick = s.atEdges rest ∧
      ∀ t, exec i u = .next t → Sys2Proof.core.run (es.length + 1) s = .next t := by
  have hf : inFlight s = some i := inFlight_of_cmd hcmd hw
  have hbusy : s.seq ≠ .idle := seq_ne_idle_of_inFlight hf
  have htake : s.script.take es.length = es := by rw [hscript, List.take_left]
  have hdrop : s.script.drop es.length = own ev :: rest := by rw [hscript, List.drop_left]
  obtain ⟨u, hrun, harch, hu⟩ := run_idle es.length hbusy (htake.symm ▸ hes)
  rw [hdrop] at hu
  have hseq : u.seq = s.seq := seq_of_arch harch
  have hfu : inFlight u = some i := by
    have hcmdu : u.cmd = encode i := (congrArg State.cmd harch :).trans hcmd
    exact inFlight_of_cmd hcmdu (hseq ▸ hw)
  refine ⟨u, hseq, State.event_cons hu, (congrArg State.bufMax harch :), (congrArg State.buf harch :), tick_of_arch harch hu,
    fun t ht => ?_⟩
  have hlast : step u = .next t := (step_awaited hu (hseq ▸ ha) hfu).trans ht
  exact (run_append hrun 1).trans (run_one hlast)

/-- The low half of a command's line on the host port is its word (R60). -/
theorem extractLsb'_zeroExtend_word (w : Word16) : (w.zeroExtend 32).extractLsb' 0 16 = w := by
  rw [BitVec.zeroExtend, BitVec.extractLsb'_setWidth_of_le (by decide), BitVec.extractLsb'_eq_self]

/-- A command's line is its acceptance. -/
theorem step_command (hidle : s.seq = .idle)
    (hscript : s.script = own (.hostWrite 0x00#8 ((encode i).zeroExtend 32)) :: rest) :
    step s = .next (s.accept (encode i) (startState i) (acceptRequest i)) := by
  rw [step_hostWrite_cmd hscript hidle, extractLsb'_zeroExtend_word, acceptCommand_eq_exec (decode_encode i),
    exec_idle hidle]

end

-- Pure commands (R179, R51)

theorem startState_of_isPure {i : Instr} (hi : isPure i = true) : startState i = .exec := by
  cases i
  case meas | meast | measrh | rdsc | rdco2 => cases hi
  all_goals rfl

theorem Completion.script {i : Instr} {s t : State} (h : Completion s i t) : t.script = s.script := by
  cases h <;> rfl

/-- Settles O42: the run takes Complete in the accepted state (`run_awaited`), and Complete reads what a clock edge leaves of
the state alone (`exec_complete`). -/
theorem pureCommandRunsToItsResult : Obligations.PureCommandRunsToItsResult := by
  intro i s between rest hi hidle hbuf hbetween hscript
  have hstart := step_command hidle hscript
  rw [startState_of_isPure hi] at hstart
  have hw : SeqState.exec ∈ walk i := startState_of_isPure hi ▸ startState_mem_walk i
  obtain ⟨u, hseq, he, -, -, htick, hrun⟩ :=
    run_awaited (s := s.accept (encode i) .exec (acceptRequest i)) rfl hw hbetween (ev := .complete) rfl
      (congrArg List.tail hscript)
  have hexec : exec i u = completeOf i ((s.accept (encode i) .exec (acceptRequest i)).atEdges rest) := by
    rw [exec_complete hi hseq he, htick]
  have h3 : 3 ≤ s.bufMax := le_trans (by decide) hbuf
  obtain ⟨t, ht⟩ := completeOf_answers (s := (s.accept (encode i) .exec (acceptRequest i)).atEdges rest) h3 i
  have hc := completion_of_completeOf hi ht
  obtain ⟨hend, hdone, -, -⟩ := hc.ends
  refine ⟨t, ?_, hend, hdone, hc.script, ?_⟩
  · exact (run_of_step (M := core) hstart (between.length + 1)).trans (hrun t (hexec.trans ht))
  · exact (exec_complete hi rfl rfl).trans ht

end Sys2Proof.Machine
end

section
/-! PROOFS. Whole transactions (42_twowire_sequencer.md R111 to R122, 43_serial_framer.md R135, R136, R140): from a command's
line through its awaited answers to its measurement. -/

namespace Sys2Proof.Machine

/-- `s` with command `i` in flight in the waiting state `q`, the edges `edges` to come, and `r` just emitted. -/
def State.underway (s : State) (i : Instr) (q : SeqState) (edges : List Edge) (r : Option Request) : State :=
  { s with cmd := encode i, done := false, err := .none, seq := q, script := edges, request := r, rdata := none }

section
variable {s : State} {i : Instr} {es rest : List Edge} {r : Option Request}

theorem run_command (hidle : s.seq = .idle)
    (hscript : s.script = own (.hostWrite 0x00#8 ((encode i).zeroExtend 32)) :: rest) :
    Sys2Proof.core.run 1 s = .next (s.underway i (startState i) rest (acceptRequest i)) := by
  have hstep := step_command hidle hscript
  have hunderway : s.accept (encode i) (startState i) (acceptRequest i) = s.underway i (startState i) rest (acceptRequest i) := by
    rw [State.accept, State.tick, hscript]
    rfl
  rw [hunderway] at hstep
  exact run_one hstep

-- The stages of a two-wire transaction, each after idle edges

theorem walk_of_isTwoWire (hi : isTwoWire i = true) : walk i = [.twWrite, .twSettle, .twRead] := by
  cases i
  case meas | meast | measrh => rfl
  all_goals cases hi

theorem startState_of_isTwoWire (hi : isTwoWire i = true) : startState i = .twWrite := by
  cases i
  case meas | meast | measrh => rfl
  all_goals cases hi

theorem run_twWriteDone (hi : isTwoWire i = true) (hes : ∀ e ∈ es, Edge.idleFor .twWrite e = true) :
    Sys2Proof.core.run (es.length + 1) (s.underway i .twWrite (es ++ own (.twWriteDone .ok) :: rest) r) =
      .next (s.underway i .twSettle rest (some settleRequest)) := by
  have hw : SeqState.twWrite ∈ walk i := by rw [walk_of_isTwoWire hi]; decide
  obtain ⟨u, hseq, he, -, -, htick, hrun⟩ :=
    run_awaited (s := s.underway i .twWrite (es ++ own (.twWriteDone .ok) :: rest) r) rfl hw hes rfl rfl
  refine hrun _ ?_
  rw [exec_twWriteDone hi hseq he, htick]
  rfl

theorem run_dlyDone (hi : isTwoWire i = true) (hes : ∀ e ∈ es, Edge.idleFor .twSettle e = true) :
    Sys2Proof.core.run (es.length + 1) (s.underway i .twSettle (es ++ own .dlyDone :: rest) r) =
      .next (s.underway i .twRead rest (some twReadRequest)) := by
  have hw : SeqState.twSettle ∈ walk i := by rw [walk_of_isTwoWire hi]; decide
  obtain ⟨u, hseq, he, -, -, htick, hrun⟩ :=
    run_awaited (s := s.underway i .twSettle (es ++ own .dlyDone :: rest) r) rfl hw hes rfl rfl
  refine hrun _ ?_
  rw [exec_dlyDone hi hseq he, htick]
  rfl

/-- What a valid frame, read for command `i`, leaves of the state `s` with the command in flight. -/
def State.measured (s : State) (i : Instr) (b0 b1 b2 : Byte) : State :=
  (convertOf i ((s.storeTwFrame b0 b1 b2).setRaw (cleanedRaw b0 b1)) (cleanedRaw b0 b1)).finish

theorem run_twReadDone {b0 b1 b2 : Byte} (hi : isTwoWire i = true) (hes : ∀ e ∈ es, Edge.idleFor .twRead e = true)
    (hbuf : Config.bufMaxLow ≤ s.bufMax) (hr : rem24 b0 b1 b2 = 0#24) :
    Sys2Proof.core.run (es.length + 1) (s.underway i .twRead (es ++ own (.twReadDone (.ok b0 b1 b2)) :: rest) r) =
      .next ((s.underway i .twRead rest none).measured i b0 b1 b2) := by
  have hw : SeqState.twRead ∈ walk i := by rw [walk_of_isTwoWire hi]; decide
  obtain ⟨u, hseq, he, hmax, -, htick, hrun⟩ :=
    run_awaited (s := s.underway i .twRead (es ++ own (.twReadDone (.ok b0 b1 b2)) :: rest) r) rfl hw hes rfl rfl
  have hubuf : Config.bufMaxLow ≤ u.bufMax := hmax.symm ▸ hbuf
  refine hrun _ ?_
  rw [exec_twReadDone_of_valid hi hseq he hubuf hr, htick]
  rfl

/-- The stages one after another. -/
theorem run_twoWire {n1 n2 n3 : List Edge} {b0 b1 b2 : Byte} (hi : isTwoWire i = true) (hidle : s.seq = .idle)
    (hbuf : Config.bufMaxLow ≤ s.bufMax) (hr : rem24 b0 b1 b2 = 0#24) (h1 : ∀ e ∈ n1, Edge.idleFor .twWrite e = true)
    (h2 : ∀ e ∈ n2, Edge.idleFor .twSettle e = true) (h3 : ∀ e ∈ n3, Edge.idleFor .twRead e = true)
    (hscript : s.script = own (.hostWrite 0x00#8 ((encode i).zeroExtend 32)) :: (n1 ++ own (.twWriteDone .ok) ::
      (n2 ++ own .dlyDone :: (n3 ++ own (.twReadDone (.ok b0 b1 b2)) :: rest)))) :
    Sys2Proof.core.run (n1.length + n2.length + n3.length + 4) s =
      .next ((s.underway i .twRead rest none).measured i b0 b1 b2) := by
  have hcommand := run_command hidle hscript
  rw [startState_of_isTwoWire hi] at hcommand
  have hlength : n1.length + n2.length + n3.length + 4 = 1 + ((n1.length + 1) + ((n2.length + 1) + (n3.length + 1))) := by
    omega
  rw [hlength]
  calc Sys2Proof.core.run (1 + ((n1.length + 1) + ((n2.length + 1) + (n3.length + 1)))) s
      = Sys2Proof.core.run ((n1.length + 1) + ((n2.length + 1) + (n3.length + 1))) _ := run_append hcommand _
    _ = Sys2Proof.core.run ((n2.length + 1) + (n3.length + 1)) _ := run_append (run_twWriteDone hi h1) _
    _ = Sys2Proof.core.run (n3.length + 1) _ := run_append (run_dlyDone hi h2) _
    _ = _ := run_twReadDone hi h3 hbuf hr

end

/-- The number CONVT's formula stores for a raw word. -/
theorem toInt_ofInt_convT (raw : Word16) : (BitVec.ofInt 32 (convT raw.toNat)).toInt = 17572 * (raw.toNat : Int) - 307036160 :=
  toInt_storeTemperature State.reset raw

/-- The number CONVRH's formula stores for a raw word. -/
theorem toInt_ofInt_convRh (raw : Word16) : (BitVec.ofInt 32 (convRh raw.toNat)).toInt = 125 * (raw.toNat : Int) - 393216 :=
  toInt_storeHumidity State.reset raw

/-- Settles O43: the run is `run_twoWire`, and its last state is `State.measured` by the three kinds of conversion. -/
theorem twoWireTransactionRunsToItsMeasurement : Obligations.TwoWireTransactionRunsToItsMeasurement := by
  intro i s n1 n2 n3 rest b0 b1 b2 hi hidle hbuf hr h1 h2 h3 hscript
  simp only [List.cons_append, List.append_assoc] at hscript
  refine ⟨_, run_twoWire hi hidle hbuf hr h1 h2 h3 hscript, ?_⟩
  have hraw : (b0 ++ b1 : Word16) &&& 0xFFFC#16 = cleanedRaw b0 b1 := rfl
  rw [State.measured, hraw]
  obtain ⟨hi, heq⟩ | ⟨hi, heq⟩ | ⟨hi, hi', heq⟩ :=
    convertOf_cases i (((s.underway i .twRead rest none).storeTwFrame b0 b1 b2).setRaw (cleanedRaw b0 b1))
      (cleanedRaw b0 b1) <;> rw [heq]
  · have hvalue := toInt_ofInt_convT (cleanedRaw b0 b1)
    simp [State.storeTemperature, State.storeTwFrame, State.underway, hr, hi, hvalue, -BitVec.toInt_ofInt]
  · have hvalue := toInt_ofInt_convRh (cleanedRaw b0 b1)
    simp [State.storeHumidity, State.storeTwFrame, State.underway, hr, hi, hvalue, -BitVec.toInt_ofInt]
  · simp [State.storeTwFrame, State.underway, hr, hi, hi']

-- The stages of a serial transaction

section
variable {s : State} {i : Instr} {es rest : List Edge} {r : Option Request}

theorem walk_of_isSerial (hi : isSerial i = true) : walk i = [.serWrite, .serRead] := by
  cases i
  case rdsc | rdco2 => rfl
  all_goals cases hi

theorem startState_of_isSerial (hi : isSerial i = true) : startState i = .serWrite := by
  cases i
  case rdsc | rdco2 => rfl
  all_goals cases hi

theorem run_serWriteDone (hi : isSerial i = true) (hes : ∀ e ∈ es, Edge.idleFor .serWrite e = true) :
    Sys2Proof.core.run (es.length + 1) (s.underway i .serWrite (es ++ own (.serWriteDone .ok) :: rest) r) =
      .next (s.underway i .serRead rest (some .serRead)) := by
  have hw : SeqState.serWrite ∈ walk i := by rw [walk_of_isSerial hi]; decide
  obtain ⟨u, hseq, he, -, -, htick, hrun⟩ :=
    run_awaited (s := s.underway i .serWrite (es ++ own (.serWriteDone .ok) :: rest) r) rfl hw hes rfl rfl
  refine hrun _ ?_
  rw [exec_serWriteDone hi hseq he, htick]
  rfl

theorem run_serReadDone {bytes : List Byte} (hi : isSerial i = true) (hes : ∀ e ∈ es, Edge.idleFor .serRead e = true)
    (hm : Memory.wf s.buf) (h11 : 11 ≤ bytes.length) (hmax : bytes.length ≤ s.bufMax) (ht : trailerOk bytes) :
    Sys2Proof.core.run (es.length + 1) (s.underway i .serRead (es ++ own (.serReadDone (.ok bytes)) :: rest) r) =
      .next ((extractOf i ((s.underway i .serRead rest none).checkSerFrame bytes true)).storeCo2
        (bytes[9] ++ bytes[10])).finish := by
  have hw : SeqState.serRead ∈ walk i := by rw [walk_of_isSerial hi]; decide
  obtain ⟨u, hseq, he, humax, hubuf, htick, hrun⟩ :=
    run_awaited (s := s.underway i .serRead (es ++ own (.serReadDone (.ok bytes)) :: rest) r) rfl hw hes rfl rfl
  have hum : Memory.wf u.buf := hubuf.symm ▸ hm
  have humax' : bytes.length ≤ u.bufMax := humax.symm ▸ hmax
  refine hrun _ ?_
  rw [exec_serReadDone_of_valid hi hseq he hum h11 humax' ht, htick]
  rfl

/-- The stages one after another. -/
theorem run_serial {n1 n2 : List Edge} {bytes : List Byte} (hi : isSerial i = true) (hidle : s.seq = .idle)
    (hm : Memory.wf s.buf) (h11 : 11 ≤ bytes.length) (hmax : bytes.length ≤ s.bufMax) (ht : trailerOk bytes)
    (h1 : ∀ e ∈ n1, Edge.idleFor .serWrite e = true) (h2 : ∀ e ∈ n2, Edge.idleFor .serRead e = true)
    (hscript : s.script = own (.hostWrite 0x00#8 ((encode i).zeroExtend 32)) :: (n1 ++ own (.serWriteDone .ok) ::
      (n2 ++ own (.serReadDone (.ok bytes)) :: rest))) :
    Sys2Proof.core.run (n1.length + n2.length + 3) s =
      .next ((extractOf i ((s.underway i .serRead rest none).checkSerFrame bytes true)).storeCo2
        (bytes[9] ++ bytes[10])).finish := by
  have hcommand := run_command hidle hscript
  rw [startState_of_isSerial hi] at hcommand
  have hlength : n1.length + n2.length + 3 = 1 + ((n1.length + 1) + (n2.length + 1)) := by omega
  rw [hlength]
  calc Sys2Proof.core.run (1 + ((n1.length + 1) + (n2.length + 1))) s
      = Sys2Proof.core.run ((n1.length + 1) + (n2.length + 1)) _ := run_append hcommand _
    _ = Sys2Proof.core.run (n2.length + 1) _ := run_append (run_serWriteDone hi h1) _
    _ = _ := run_serReadDone hi h2 hm h11 hmax ht

end

/-- Settles O44: the run is `run_serial`, and its last state is the checked frame with CO2 and, for RDSC, STATUS. -/
theorem serialTransactionRunsToItsMeasurement : Obligations.SerialTransactionRunsToItsMeasurement := by
  intro i s n1 n2 rest bytes h11 hi hidle hm hmax ht h1 h2 hscript
  simp only [List.cons_append, List.append_assoc] at hscript
  refine ⟨_, run_serial hi hidle hm h11 hmax ht h1 h2 hscript, ?_⟩
  have hmin : min bytes.length s.bufMax = bytes.length := Nat.min_eq_left hmax
  have hstatus := extractOf_rdsc_checkSerFrame (s := s.underway i .serRead rest none) hm h11 hmax true
  obtain ⟨rfl, -⟩ | ⟨hi, heq⟩ := extractOf_cases i ((s.underway i .serRead rest none).checkSerFrame bytes true)
  · rw [hstatus]
    simp [State.storeCo2, convCo2, State.checkSerFrame, withSerFrame, State.underway, hmin]
  · rw [heq]
    simp [State.storeCo2, convCo2, State.checkSerFrame, withSerFrame, State.underway, hmin, hi]

end Sys2Proof.Machine
end

section
/-! PROOFS. Host programs (30_encoding.md R66): what LDBUF and APPENDCRC leave, line by line, and the round trip of a frame
whose checksum the host appends. -/

namespace Sys2Proof.Machine

-- The lines

theorem toNat_targetIndex_buf {k : Nat} (hk : k < 128) : (targetIndex (.buf k)).toNat = 0x80 + k := by
  rw [targetIndex, BitVec.toNat_ofNat]
  omega

/-- The byte of a line that writes one. -/
theorem extractLsb'_zeroExtend_byte (b : Byte) : (b.zeroExtend 32).extractLsb' 0 8 = b := by
  rw [BitVec.zeroExtend, BitVec.extractLsb'_setWidth_of_le (by decide), BitVec.extractLsb'_eq_self]

/-- The length of a line that writes LEN. -/
theorem extractLsb'_ofNat_len (n : Nat) : (BitVec.ofNat 32 n).extractLsb' 0 8 = BitVec.ofNat 8 n := by
  apply BitVec.eq_of_toNat_eq
  rw [BitVec.extractLsb'_toNat, BitVec.toNat_ofNat, BitVec.toNat_ofNat, Nat.shiftRight_zero]
  omega

section
variable {s : State} {rest : List Edge}

theorem step_line_buf {k : Nat} {b : Byte} (hidle : s.seq = .idle) (hk : k < s.bufMax) (hmax : s.bufMax ≤ 128)
    (hscript : s.script = lineEdge (.wr (.buf k) (b.zeroExtend 32)) :: rest) :
    step s = .next ((s.atEdges rest).setBufByte k b) := by
  have hindex : (targetIndex (.buf k)).toNat = 0x80 + k := toNat_targetIndex_buf (by omega)
  have hcmd : targetIndex (.buf k) ≠ 0x00#8 := index_ne_of_byte hindex (by decide)
  rw [step_hostWrite_register hscript hidle hcmd, writeIndex_byte (s := s.tick) _ hk hindex, extractLsb'_zeroExtend_byte,
    tick_of_arch rfl hscript]

theorem step_line_len {v : Word32} (hidle : s.seq = .idle) (hscript : s.script = lineEdge (.wr .len v) :: rest) :
    step s = .next ((s.atEdges rest).setLen (v.extractLsb' 0 8)) := by
  have hcmd : targetIndex .len ≠ 0x00#8 := by decide
  rw [step_hostWrite_register hscript hidle hcmd, tick_of_arch rfl hscript]
  exact congrArg _ (writeIndex_len _ v)

theorem step_line_rdCrc16 (hscript : s.script = lineEdge (.rd .crc16) :: rest) :
    step s = .next { s.atEdges rest with rdata := some (s.crc16.zeroExtend 32) } := by
  rw [step_hostRead hscript, tick_of_arch rfl hscript]
  rfl

/-- A run of buffer lines is one write of their bytes. -/
theorem run_bufLines {k : Nat} {bytes : List Byte} (hidle : s.seq = .idle) (hfit : k + bytes.length ≤ s.bufMax)
    (hmax : s.bufMax ≤ 128) (hscript : s.script = (bufLines k bytes).map lineEdge ++ rest) :
    ∃ t : State, Sys2Proof.core.run bytes.length s = .next t ∧ t.script = rest ∧
      t.arch = { s.arch with buf := Memory.writeList s.buf k bytes } := by
  induction bytes generalizing s k with
  | nil => exact ⟨s, rfl, hscript, rfl⟩
  | cons b bytes ih =>
    rw [List.length_cons] at hfit
    have hstep := step_line_buf hidle (by omega) hmax hscript
    have hfit' : k + 1 + bytes.length ≤ s.bufMax := by omega
    obtain ⟨t, hrun, ht, harch⟩ :=
      ih (s := (s.atEdges ((bufLines (k + 1) bytes).map lineEdge ++ rest)).setBufByte k b) (k := k + 1) hidle hfit' hmax rfl
    exact ⟨t, (run_of_step (M := core) hstep bytes.length).trans hrun, ht, harch⟩

/-- The lines that load `bytes` from index `k` up and set LEN to `n`; LDBUF and, after its read, APPENDCRC are such. -/
def loadLines (k : Nat) (bytes : List Byte) (n : Nat) : List HostLine :=
  bufLines k bytes ++ [.wr .len (BitVec.ofNat 32 n)]

theorem ldbuf_eq_loadLines (bytes : List Byte) : ldbuf bytes = loadLines 0 bytes bytes.length := rfl

theorem appendcrc_eq_loadLines (k : Nat) (c : Word16) :
    appendcrc k c = .rd .crc16 :: loadLines k [lo8 c, hi8 c] (k + 2) := rfl

theorem run_load {k n : Nat} {bytes : List Byte} (hidle : s.seq = .idle) (hfit : k + bytes.length ≤ s.bufMax)
    (hmax : s.bufMax ≤ 128) (hscript : s.script = (loadLines k bytes n).map lineEdge ++ rest) :
    ∃ t : State, Sys2Proof.core.run (bytes.length + 1) s = .next t ∧ t.script = rest ∧
      t.arch = { s.arch with buf := Memory.writeList s.buf k bytes, len := BitVec.ofNat 8 n } := by
  rw [loadLines, List.map_append, List.append_assoc] at hscript
  obtain ⟨u, hrun, hu, harch⟩ := run_bufLines hidle hfit hmax hscript
  have huidle : u.seq = .idle := (congrArg State.seq harch :).trans hidle
  have hlen := step_line_len (rest := rest) huidle hu
  rw [extractLsb'_ofNat_len] at hlen
  refine ⟨_, (run_append hrun 1).trans (run_one (M := core) hlen), rfl, ?_⟩
  have hcomm : ((u.atEdges rest).setLen (BitVec.ofNat 8 n)).arch = { u.arch with len := BitVec.ofNat 8 n } := rfl
  rw [hcomm, harch]

end

/-- Settles O45: `run_load` from index 0. -/
theorem ldbufLoadsTheBuffer : Obligations.LdbufLoadsTheBuffer := by
  intro s bytes rest hidle _ hhigh hfit hscript
  rw [ldbuf_eq_loadLines] at hscript
  exact run_load hidle ((Nat.zero_add _).trans_le hfit) hhigh hscript

-- The round trip of a frame (DOC0 section 8)

section
variable {s : State} {i : Instr} {rest : List Edge}

/-- A pure command and its Complete, one edge after the other. -/
theorem run_pureCommand {t : State} (hi : isPure i = true) (hidle : s.seq = .idle)
    (hscript : s.script = lineEdge (.command i) :: envEdge .complete :: rest)
    (ht : completeOf i (s.underway i .exec rest none) = .next t) : Sys2Proof.core.run 2 s = .next t := by
  have hcommand := run_command hidle hscript
  rw [startState_of_isPure hi] at hcommand
  have hw : SeqState.exec ∈ walk i := startState_of_isPure hi ▸ startState_mem_walk i
  obtain ⟨u, hseq, he, -, -, htick, hrun⟩ :=
    run_awaited (s := s.underway i .exec (envEdge .complete :: rest) (acceptRequest i)) (es := []) (ev := .complete)
      rfl hw (fun e he => absurd he List.not_mem_nil) rfl rfl
  have hexec : exec i u = .next t := by
    rw [exec_complete hi hseq he, htick]
    exact ht
  exact (run_append hcommand 1).trans (hrun t hexec)

/-- APPENDCRC reads CRC16 and loads a checksum after the frame, low byte first. -/
theorem run_appendcrc {k : Nat} {c : Word16} (hidle : s.seq = .idle) (hfit : k + 2 ≤ s.bufMax) (hmax : s.bufMax ≤ 128)
    (hscript : s.script = (appendcrc k c).map lineEdge ++ rest) :
    ∃ u t : State, Sys2Proof.core.run 1 s = .next u ∧ u.rdata = some (s.crc16.zeroExtend 32) ∧
      Sys2Proof.core.run 4 s = .next t ∧ t.script = rest ∧
      t.arch = { s.arch with buf := Memory.writeList s.buf k [lo8 c, hi8 c], len := BitVec.ofNat 8 (k + 2) } := by
  rw [appendcrc_eq_loadLines] at hscript
  have hread := step_line_rdCrc16 hscript
  obtain ⟨t, hrun, ht, harch⟩ :=
    run_load (s := { s.atEdges ((loadLines k [lo8 c, hi8 c] (k + 2)).map lineEdge ++ rest) with
                     rdata := some (s.crc16.zeroExtend 32) }) hidle hfit hmax rfl
  exact ⟨_, t, run_one (M := core) hread, rfl, (run_of_step (M := core) hread 3).trans hrun, ht, harch⟩

end

/-- A write above a run leaves it as it was. -/
theorem Memory.readList_writeList_above (m : Memory) (k : Nat) (bytes : List Byte) :
    Memory.readList (Memory.writeList m k bytes) 0 k = Memory.readList m 0 k := by
  refine List.map_congr_left fun j hj => ?_
  rw [List.mem_range] at hj
  exact Memory.read_writeList_outside m k bytes (by omega)

/-- R87, R90: where the frame's own checksum stands after it, CRC16CHK computes it again and finds it. -/
theorem completeCrc16chk_of_trailer {s : State} {m : Memory} {k : Nat} {c : Word16} (hm : Memory.wf m)
    (hc : c = crc16 (Memory.readList m 0 k)) (hbuf : s.buf = Memory.writeList m k [lo8 c, hi8 c])
    (hlen : s.len.toNat = k + 2) (hmax : k + 2 ≤ s.bufMax) :
    completeCrc16chk s = .next ((s.setCrc16 c).setMatched true).finish := by
  have hframe : crc16 (s.memRead 0 k) = c := by
    rw [State.memRead, hbuf, Memory.readList_writeList_above, hc]
  have hlo : s.bufByte k = lo8 c := by
    rw [State.bufByte, hbuf]
    exact Memory.read_writeList_inside hm k [lo8 c, hi8 c] (Nat.zero_lt_succ 1)
  have hhi : s.bufByte (k + 1) = hi8 c := by
    rw [State.bufByte, hbuf]
    exact Memory.read_writeList_inside hm k [lo8 c, hi8 c] (Nat.lt_succ_self 1)
  have htrailer : s.trailerMatches (k + 2) c = true := by
    rw [State.trailerMatches, Nat.add_sub_cancel, Nat.add_sub_assoc (by decide), hlo, hhi, beq_self_eq_true, beq_self_eq_true]
    rfl
  rw [completeCrc16chk_of_len (by omega) (by omega), hlen, Nat.add_sub_cancel, hframe, htrailer]

/-- Settles O46: CRC16 leaves the checksum (`completeCrc16_of_len`), APPENDCRC puts it after the frame, and CRC16CHK finds it
there (`completeCrc16chk_of_trailer`). -/
theorem appendedChecksumMatches : Obligations.AppendedChecksumMatches := by
  intro s c rest hidle hm hlow hhigh hfit hc hscript
  have hmax : s.bufMax ≤ 128 := hhigh
  have hfits : s.len.toNat ≤ s.bufMax := by omega
  have hcrc16 := run_pureCommand (i := .crc16) rfl hidle hscript (completeCrc16_of_len hfits)
  obtain ⟨t3, t6, hrun3, hrdata, hrun6, hscript6, harch⟩ :=
    run_appendcrc (s := ((s.underway .crc16 .exec ((appendcrc s.len.toNat c).map lineEdge ++
        lineEdge (.command .crc16chk) :: envEdge .complete :: rest) none).setCrc16 (crc16 (s.memRead 0 s.len.toNat))).finish)
      rfl hfit hmax rfl
  have hbuf : t6.buf = Memory.writeList s.buf s.len.toNat [lo8 c, hi8 c] := (congrArg State.buf harch :)
  have hmax6 : t6.bufMax = s.bufMax := (congrArg State.bufMax harch :)
  have hlen : t6.len.toNat = s.len.toNat + 2 := by
    have hlen6 : t6.len = BitVec.ofNat 8 (s.len.toNat + 2) := (congrArg State.len harch :)
    rw [hlen6, BitVec.toNat_ofNat]
    omega
  have hidle6 : t6.seq = .idle := (congrArg State.seq harch :)
  have hchk := run_pureCommand (i := .crc16chk) rfl hidle6 hscript6
    (completeCrc16chk_of_trailer hm hc hbuf hlen (by show s.len.toNat + 2 ≤ t6.bufMax; omega))
  refine ⟨t3, _, (run_append hcrc16 1).trans hrun3, ?_, (run_append hcrc16 6).trans ((run_append hrun6 2).trans hchk), rfl, rfl,
    rfl, rfl, rfl, hlen, rfl⟩
  rw [hrdata, hc]
  rfl

end Sys2Proof.Machine
end

section
/-! PROOFS. The CRC-16 of a frame with its trailer (40_checksum.md R84, R85, R90): eight shift steps are injective and move a
high byte down, so the two bytes that clear the register are its own, low byte first. -/

namespace Sys2Proof.Machine

/-- R84: one byte of the CRC is an XOR and eight shift steps. -/
theorem crc16Byte_eq_iterate (a : Word16) (b : Byte) : crc16Byte a b = crc16Shift^[8] (a ^^^ b.zeroExtend 16) := rfl

/-- A shift step puts the bit it shifts out at the top, since the polynomial's top bit is set. -/
theorem msb_crc16Shift (a : Word16) : (crc16Shift a).getLsbD 15 = a.getLsbD 0 := by
  have hpoly : crc16Poly.getLsbD 15 = true := rfl
  have htop : (a >>> 1).getLsbD 15 = false := by rw [BitVec.getLsbD_ushiftRight]; exact BitVec.getLsbD_of_ge _ _ (by decide)
  unfold crc16Shift
  split
  · next h => rw [BitVec.getLsbD_xor, htop, hpoly, h]; rfl
  · next h => rw [htop, Bool.eq_false_iff.2 h]

/-- So a shift step can be undone. -/
theorem crc16Shift_injective : Function.Injective crc16Shift := by
  intro a b h
  have hlow : a.getLsbD 0 = b.getLsbD 0 := by rw [← msb_crc16Shift, h, msb_crc16Shift]
  have hhigh : a >>> 1 = b >>> 1 := by
    unfold crc16Shift at h
    rw [hlow] at h
    split at h
    · exact (BitVec.xor_left_inj _).1 h
    · exact h
  apply BitVec.eq_of_getLsbD_eq
  intro j _
  cases j with
  | zero => exact hlow
  | succ j => simpa [Nat.add_comm 1 j] using congrArg (·.getLsbD j) hhigh

/-- Eight shift steps on a word whose low byte is 0 move its high byte down. -/
theorem iterate_crc16Shift_highByte (y : Byte) : crc16Shift^[8] (y ++ 0#8) = y.zeroExtend 16 := by
  revert y; decide +kernel

theorem zeroExtend_eq_append (x : Byte) : x.zeroExtend 16 = 0#8 ++ x :=
  BitVec.setWidth_eq_append (v := 8) (w := 16) (by decide)

/-- One byte brings the register to `y` exactly where the register held `y` above that byte. -/
theorem crc16Byte_eq_zeroExtend_iff {c : Word16} {x y : Byte} : crc16Byte c x = y.zeroExtend 16 ↔ c = y ++ x := by
  have hword : (y ++ 0#8 : Word16) ^^^ x.zeroExtend 16 = y ++ x := by
    rw [zeroExtend_eq_append, BitVec.xor_append, BitVec.xor_zero, BitVec.zero_xor]
  rw [crc16Byte_eq_iterate, ← iterate_crc16Shift_highByte y, (crc16Shift_injective.iterate 8).eq_iff, ← hword,
    ← BitVec.xor_left_inj (x.zeroExtend 16), BitVec.xor_assoc, BitVec.xor_self, BitVec.xor_zero]

/-- One byte clears the register exactly where the register holds that byte. -/
theorem crc16Byte_eq_zero_iff {a : Word16} {y : Byte} : crc16Byte a y = 0#16 ↔ a = y.zeroExtend 16 := by
  rw [zeroExtend_eq_append]
  exact crc16Byte_eq_zeroExtend_iff (y := 0#8)

/-- R90: two more bytes clear the CRC exactly where they are the CRC, low byte first. -/
theorem crc16_append_eq_zero_iff {bytes : List Byte} {x y : Byte} : crc16 (bytes ++ [x, y]) = 0#16 ↔ crc16 bytes = y ++ x := by
  have hfold : crc16 (bytes ++ [x, y]) = crc16Byte (crc16Byte (crc16 bytes) x) y := List.foldl_append
  rw [hfold, crc16Byte_eq_zero_iff, crc16Byte_eq_zeroExtend_iff]

theorem hi8_append_lo8 (c : Word16) : hi8 c ++ lo8 c = c := word_of_fields c

theorem eq_append_iff_bytes {c : Word16} {x y : Byte} : c = y ++ x ↔ [x, y] = [lo8 c, hi8 c] := by
  constructor
  · rintro rfl
    rw [lo8, hi8, BitVec.extractLsb'_append_eq_right, BitVec.extractLsb'_append_eq_left]
  · intro h
    obtain ⟨hx, h⟩ := List.cons.inj h
    obtain ⟨hy, -⟩ := List.cons.inj h
    rw [hx, hy, hi8_append_lo8]

/-- Settles O49: both clauses are `crc16_append_eq_zero_iff`, the second on the list cut before its last two bytes. -/
theorem crc16IsZeroIffTheTrailerMatches : Obligations.Crc16IsZeroIffTheTrailerMatches := by
  refine ⟨fun bytes => crc16_append_eq_zero_iff.2 (hi8_append_lo8 _).symm, fun bytes h2 => ?_⟩
  have hcut : bytes = bytes.take (bytes.length - 2) ++ [bytes[bytes.length - 2], bytes[bytes.length - 1]] := by
    rw [← drop_length_sub_two h2, List.take_append_drop]
  calc crc16 bytes = 0#16
      ↔ crc16 (bytes.take (bytes.length - 2) ++ [bytes[bytes.length - 2], bytes[bytes.length - 1]]) = 0#16 := by rw [← hcut]
    _ ↔ crc16 (bytes.take (bytes.length - 2)) = bytes[bytes.length - 1] ++ bytes[bytes.length - 2] :=
      crc16_append_eq_zero_iff
    _ ↔ trailerOk bytes := by
      rw [eq_append_iff_bytes, trailerOk, drop_length_sub_two h2]
      rfl

end Sys2Proof.Machine
end
